-- ==== Sys2Proof/Word.lean ====
section
/-! DEFINITION. The word types of the block: bytes, 16-bit halves and 32-bit words (00_scope.md rule R9).
Byte order and bit fields are decided in Decode.lean, not here. -/

namespace Sys2Proof

/-- One byte of buffer memory, of the scratch region or of a frame (rules R80, R82). -/
abbrev Byte := BitVec 8

/-- A u16: a buffer element, an immediate, a duration, a gain (rules R81, R111). -/
abbrev Half := BitVec 16

/-- A u32: a command word, a response word, a counter (rules R110, R118, R42). -/
abbrev Word := BitVec 32

/-- A binary32 value, carried as its bit pattern and never converted (rules R9, R113). -/
abbrev F32 := BitVec 32

end Sys2Proof
end

