-- ==== Sys2Proof/Config.lean ====
section
/-! DEFINITION. What an implementation fixes (the parameters of 00_scope.md rule R7, one record), the test
configuration TC1 of 95_test_vectors.md §1, the turns in which the block's agents move (10_state.md rule R30,
60_exceptions.md rule R321), and the free values: constants without a body, of which nothing can be proved. -/

namespace Sys2Proof

/-- A row of `TIMING_TABLE` (rule R160): duration, output-buffer length, sampler time-scale factor. -/
structure TimingRow where
  durationMs : Half
  outLen : Nat
  tsf : Nat
  deriving DecidableEq, Repr

/-- The coefficients `c[k][0..3]` of one interval (rule R181). -/
structure Cubic where
  c0 : Rat
  c1 : Rat
  c2 : Rat
  c3 : Rat
  deriving DecidableEq, Repr

/-- `CAL_TABLE` (rule R181): `M + 1` breakpoints and `M` cubics. -/
structure CalTable where
  breakpoints : List Rat
  cubics : List Cubic
  deriving DecidableEq, Repr

/-- `HOLD_DIV` (rules R7, R168). -/
inductive HoldDiv where
  | exact
  | truncate
  deriving DecidableEq, Repr

/-- `RESOLVE_ARITH` and `RAMP_ARITH` (rules R7, R168, R192): exact rationals, or a total function that the
implementation supplies (`Config.suppliedHoldCount`, `Config.suppliedSample`, which have no body here). -/
inductive Arith where
  | exact
  | supplied
  deriving DecidableEq, Repr

/-- `RAMP_STEP_DIVISOR` (rules R7, R184). -/
inductive StepDivisor where
  | nMinusOne
  | n
  deriving DecidableEq, Repr

/-- `SEGMENT_ADVANCE` (rules R7, R185). -/
inductive SegmentAdvance where
  | multi
  | single
  deriving DecidableEq, Repr

/-- The implementation parameters of rule R7. `CYCLE_WIDTH` is not a field: decision D35 fixes it at 32,
which is the width of `State.cycle`. -/
structure Config where
  /-- `W`, the hardware counter width in bits. -/
  counterWidth : Nat
  /-- `BUS_CLOCK_HZ`. -/
  busClockHz : Nat
  /-- `SETTLE_COUNT`. -/
  settleCount : Nat
  /-- `TIMING_TABLE`, in order. -/
  timingTable : List TimingRow
  /-- `F_MIN`. -/
  fMin : Rat
  /-- `F_MAX`. -/
  fMax : Rat
  /-- `CAL_TABLE`. -/
  cal : CalTable
  /-- `VREF`. -/
  vref : Rat
  /-- `MAX_CODE`. -/
  maxCode : Nat
  /-- `DMA_GRANULE`, in bytes. -/
  dmaGranule : Nat
  /-- `BUF_CAPACITY`, in bytes. -/
  bufCapacity : Nat
  /-- `SCRATCH_CAPACITY`, in bytes. -/
  scratchCapacity : Nat
  /-- `FRAME_MAGIC`. -/
  frameMagic : Word
  /-- `HOLD_DIV`. -/
  holdDiv : HoldDiv
  /-- `RESOLVE_ARITH`. -/
  resolveArith : Arith
  /-- `RAMP_ARITH`. -/
  rampArith : Arith
  /-- `RAMP_STEP_DIVISOR`. -/
  stepDivisor : StepDivisor
  /-- `SEGMENT_ADVANCE`. -/
  segmentAdvance : SegmentAdvance
  deriving DecidableEq, Repr

/-- TC1 of 95_test_vectors.md §1: a TEST configuration, not the values of the hardware (DESIGN CHOICE, unsafe:
notes/assumptions/1.md). `State.reset` stands on it because a plain state needs some configuration. -/
def Config.tc1 : Config where
  counterWidth := 16
  busClockHz := 48000000
  settleCount := 10
  timingTable := [
    ⟨1, 8, 2⟩, ⟨2, 0, 0⟩, ⟨3, 250, 2⟩, ⟨5, 1000, 3⟩, ⟨6, 16, 0⟩, ⟨8, 2048, 8⟩,
    ⟨10, 1000, 5⟩, ⟨100, 1000, 10⟩, ⟨200, 1000, 10⟩, ⟨1, 16, 4⟩, ⟨9, 48000, 1⟩, ⟨12, 4096, 1⟩]
  fMin := 95
  fMax := 210
  cal := {
    breakpoints := [100, 150, 160, 200]
    cubics := [
      ⟨1, 1 / 100, 0, 0⟩,
      ⟨8 / 5, 1 / 100, 0, 0⟩,
      ⟨17 / 10, 1 / 100, 1 / 5000, 1 / 500000⟩] }
  vref := 4
  maxCode := 4000
  dmaGranule := 8
  bufCapacity := 8192
  scratchCapacity := 1024
  frameMagic := 0x52414452#32
  holdDiv := .exact
  resolveArith := .exact
  rampArith := .exact
  stepDivisor := .nMinusOne
  segmentAdvance := .multi

/-- The two byte-addressed memories (rules R80, R82). -/
inductive Space where
  /-- `BUF`, the buffer memory. -/
  | buf
  /-- `SCR`, the scratch region. -/
  | scr
  deriving DecidableEq, Repr

/-- What one sample of a ramp comes to before the code range is checked (rules R185, R186, R187). -/
inductive SampleOutcome where
  /-- The sample lies below the first breakpoint. -/
  | below
  /-- The sample lies above the last breakpoint. -/
  | exhausted
  /-- The output code, not yet checked against `[0, MAX_CODE]`. -/
  | code (c : Int)
  deriving DecidableEq, Repr, Inhabited

/-- Which agent moves next, with what its ports bring it (rules R30, R60, R321). The choice among the agents is
free; a turn given to an agent that has no step enabled passes. -/
inductive Turn where
  /-- The host puts one word on `CMD` (rule R110). -/
  | deliver (w : Word)
  /-- The command sequencer takes the delivered command, if all its words are there. -/
  | command
  /-- One tick of the subsystems; `ADC_IN` carries `adc` (rules R250, R252). -/
  | tick (adc : Half)
  /-- The interrupt handler; the counter stood at `ts` at the trigger edge (rule R246, decision D54). -/
  | handler (ts : Word)
  /-- The framer takes a frame that was placed for it (the model's own turn: notes/assumptions/4.md). -/
  | framer
  /-- Reset; the calibration on `CAL` answers failure or success (rules R340, R341). -/
  | reset (calFails : Bool)
  deriving DecidableEq, Repr, Inhabited

/-- FREE VALUE: the agent that moves when the schedule names none, at the `k`-th draw (rule R321(b)). -/
opaque Config.freeTurn (k : Nat) : Turn

/-- FREE VALUE: what the `k`-th draw reads from the cycle counter (rules R50, R52, decision D52). -/
opaque Config.cycleRead (k : Nat) : Word

/-- FREE VALUE: sample `j` that EMIT_PULSE reads while the sampler runs, at the `k`-th draw (rule R94). -/
opaque Config.racedSample (k j : Nat) : Half

/-- FREE VALUE: the byte at `a` of storage handed out at the `k`-th draw and not yet written (rule R84). -/
opaque Config.allocatedByte (k a : Nat) : Byte

/-- FREE VALUE: the byte at `a` of a space that nothing has written since the `r`-th reset (rule R84). -/
opaque Config.unwrittenByte (sp : Space) (r a : Nat) : Byte

/-- FREE VALUE: what a 32-bit field shows of a count that 32 bits do not hold (rule R38 states no value;
notes/assumptions/8.md). -/
opaque Config.wideWord (n : Nat) : Word

/-- The supplied `RESOLVE_ARITH` (rule R168): the hold count of duration `d` and output length `outLen`. -/
opaque Config.suppliedHoldCount (c : Config) (d : Half) (outLen : Nat) : Nat

/-- The supplied `RAMP_ARITH` (rule R192): sample `i` of the `n` samples from `lo` to `hi`. -/
opaque Config.suppliedSample (c : Config) (lo hi : Rat) (n i : Nat) : SampleOutcome

end Sys2Proof
end

