-- ==== Sys2Proof/Syntax.lean ====
section
/-! DEFINITION. The instructions: the eleven host commands of 30_encoding.md rule R112 and the four frames of rule
R141, one constructor for each row of spec/opcode_table.json; the names of the decode rejections; the
pseudo-instructions and the assembler's refusals (rules R150, R151). -/

namespace Sys2Proof

/-- The rows of spec/opcode_table.json. Operands are the decoded fields of rules R111 to R114 and R142 to R145;
frequencies are binary32 bit patterns (rule R113). -/
inductive Instr where
  /-- CONFIGURE (rule R221). -/
  | configure (duration gain : Half) (fStart fStop fReturn : F32)
  /-- START (rule R230). -/
  | start
  /-- STOP (rule R235). -/
  | stop
  /-- SET_TX_ENABLE (rule R240). -/
  | setTxEnable (enable : Bool)
  /-- READ_STATUS (rule R242). -/
  | readStatus
  /-- RESOLVE (rule R170). -/
  | resolve (duration : Half)
  /-- GENERATE (rule R195). -/
  | generate (count offset : Half) (fStart fStop : F32)
  /-- EMIT_PULSE (rule R285). -/
  | emitPulse
  /-- SEND_HEARTBEAT (rule R280). -/
  | sendHeartbeat
  /-- SEND_LOG (rule R281). -/
  | sendLog (category severity : Half) (text : List Byte)
  /-- SEND_REPLY (rule R282). -/
  | sendReply (status : Half) (text : List Byte)
  /-- FRAME_HEARTBEAT (rule R143). -/
  | frameHeartbeat (timestamp : Word)
  /-- FRAME_LOG (rule R144). -/
  | frameLog (category severity : Half) (text : List Byte)
  /-- FRAME_REPLY (rule R145). -/
  | frameReply (status : Half) (text : List Byte)
  /-- FRAME_PULSE (rule R142). `status` is the whole status bitfield. -/
  | framePulse (seq timestamp status : Word) (gain duration : Half)
      (fStart fStop fReturn : F32) (samples : List Half)
  deriving DecidableEq, Repr

/-- Why a command is refused at decode (rules R116, R117): the sub-causes of `ILLEGAL_COMMAND` (rule R120). -/
inductive IllegalSub where
  | unknownOpcode
  | reservedBits
  | badImmediate
  deriving DecidableEq, Repr

/-- Why a byte string is no well-formed frame (rule R146). -/
inductive FrameReject where
  /-- Fewer than 8 bytes. -/
  | tooShort
  /-- Bytes 0 to 3 are not `le32(FRAME_MAGIC)`. -/
  | badMagic
  /-- The length is not `8 + P`. -/
  | badSize
  /-- The message type is not 0 to 3. -/
  | badType
  /-- The payload does not have the form its type asks for. -/
  | badPayload
  deriving DecidableEq, Repr

/-- The pseudo-instructions (rule R151). They have no words of their own: each stands for the commands it expands to. -/
inductive Pseudo where
  | sawtooth (duration gain : Half) (fStart fStop : F32)
  | triangle (duration gain : Half) (fStart fStop fReturn : F32)
  | txOn
  | txOff
  | reconfigure (duration gain : Half) (fStart fStop fReturn : F32)
  | halt
  deriving DecidableEq, Repr

/-- Why the assembler refuses a line (rules R150, R151). -/
inductive AsmReject where
  /-- The first word of the line is no mnemonic. -/
  | unknownMnemonic
  /-- The operands are not as many as the mnemonic has. -/
  | operandCount
  /-- An integer operand is neither decimal nor `0x` hexadecimal. -/
  | badInteger
  /-- A frequency operand is no decimal floating-point literal. -/
  | badFrequency
  /-- A text operand is no double-quoted byte string. -/
  | badText
  /-- An operand does not fit its field. -/
  | doesNotFit
  /-- TRIANGLE with a return frequency of +0.0 or −0.0. -/
  | zeroReturn
  deriving DecidableEq, Repr

end Sys2Proof
end

