-- ==== Sys2Proof/WellFormed.lean ====
section
/-! DEFINITION. Which instruction terms an encoding exists for: every operand fits its field (30_encoding.md rules
R111, R114, R140, R142 to R145, R150). -/

namespace Sys2Proof

/-- The text fits the 16-bit length field `T` (rules R112, R150). -/
def textFits (text : List Byte) : Bool :=
  decide (text.length ≤ 65535)

/-- A payload of `p` bytes fits the 2-byte payload-size field (rule R140). -/
def payloadFits (p : Nat) : Bool :=
  decide (p ≤ 65535)

/-- An instruction that has an encoding. -/
def wellFormed : Instr → Bool
  | .configure _ _ _ _ _ => true
  | .start => true
  | .stop => true
  | .setTxEnable _ => true
  | .readStatus => true
  | .resolve _ => true
  | .generate _ _ _ _ => true
  | .emitPulse => true
  | .sendHeartbeat => true
  | .sendLog _ _ text => textFits text
  | .sendReply _ text => textFits text
  | .frameHeartbeat _ => true
  | .frameLog _ _ text => payloadFits (4 + text.length)
  | .frameReply _ text => payloadFits (2 + text.length)
  | .framePulse _ _ _ _ _ _ _ _ samples => payloadFits (32 + 2 * samples.length)

end Sys2Proof
end

