-- ==== Sys2Proof/Decode.lean ====
section
/-! DEFINITION. The bit fields and the byte order (rules R9, R12, R85), the decoder of command words (rules R110 to
R117) and of frames (rule R146), and after them the encoders, written from the same tables. -/

namespace Sys2Proof

/-! ## Byte order (rules R12, R85: little-endian everywhere) -/

/-- `le16`. -/
def le16 (v : Half) : List Byte :=
  [v.extractLsb' 0 8, v.extractLsb' 8 8]

/-- `le32`. -/
def le32 (v : Word) : List Byte :=
  [v.extractLsb' 0 8, v.extractLsb' 8 8, v.extractLsb' 16 8, v.extractLsb' 24 8]

/-- A u16 from its low and its high byte. -/
def ofBytes16 (b0 b1 : Byte) : Half :=
  b1 ++ b0

/-- A u32 from its bytes, the lowest first. -/
def ofBytes32 (b0 b1 b2 b3 : Byte) : Word :=
  b3 ++ (b2 ++ (b1 ++ b0))

/-- The u16 at offset `k` of a byte string. -/
def read16 (bs : List Byte) (k : Nat) : Half :=
  ofBytes16 (bs.getD k 0) (bs.getD (k + 1) 0)

/-- The u32 at offset `k` of a byte string. -/
def read32 (bs : List Byte) (k : Nat) : Word :=
  ofBytes32 (bs.getD k 0) (bs.getD (k + 1) 0) (bs.getD (k + 2) 0) (bs.getD (k + 3) 0)

/-- The u16s of a byte string, two bytes each. -/
def halves : List Byte → List Half
  | b0 :: b1 :: rest => ofBytes16 b0 b1 :: halves rest
  | _ => []

/-- The bytes of a list of u16s (rule R142: `le16(d[0]) ++ … ++ le16(d[K-1])`). -/
def bytesOfHalves (vs : List Half) : List Byte :=
  vs.flatMap le16

/-! ## Fields of command words (rules R111, R113) -/

/-- `OP = w0[7:0]`. -/
def opField (w : Word) : BitVec 8 :=
  w.extractLsb' 0 8

/-- `RSV = w0[15:8]`. -/
def rsvField (w : Word) : BitVec 8 :=
  w.extractLsb' 8 8

/-- Bits 15:0 of a word. -/
def lowHalf (w : Word) : Half :=
  w.extractLsb' 0 16

/-- Bits 31:16 of a word: `IMM16` of a header word, the upper field of an operand word. -/
def highHalf (w : Word) : Half :=
  w.extractLsb' 16 16

/-- How many words hold `t` bytes of text: `⌈t / 4⌉` (rule R112). -/
def textWords (t : Nat) : Nat :=
  (t + 3) / 4

/-- `L(w0)` (rules R112, R115). It depends on `OP` and, for OP 0x0A and 0x0B only, on `IMM16`. -/
def commandLength (w0 : Word) : Nat :=
  match (opField w0).toNat with
  | 1 => 5
  | 7 => 4
  | 10 => 2 + textWords (highHalf w0).toNat
  | 11 => 2 + textWords (highHalf w0).toNat
  | _ => 1

/-- The opcode is one of 0x01 to 0x0B (rules R112, R117). -/
def assignedOpcode (op : BitVec 8) : Bool :=
  decide (1 ≤ op.toNat ∧ op.toNat ≤ 11)

/-- Operand word `k` (0 is `w1`). -/
def operandWord (ops : List Word) (k : Nat) : Word :=
  ops.getD k 0

/-- The first `t` bytes packed into words, byte 0 the low byte of the first word (rule R114). -/
def unpackText (t : Nat) (ws : List Word) : List Byte :=
  (ws.flatMap le32).take t

/-! ## The command decoder -/

/-- A command with no immediate: `IMM16` must be 0 (rule R116). -/
def decodeBare (w0 : Word) (i : Instr) : Except IllegalSub Instr :=
  if highHalf w0 = 0 then .ok i else .error .reservedBits

/-- The reserved upper half of `w1` must be 0 (rules R113, R116). -/
def decodeReserved (w1 : Word) (i : Instr) : Except IllegalSub Instr :=
  if highHalf w1 = 0 then .ok i else .error .reservedBits

/-- SET_TX_ENABLE's immediate is 0 or 1 (rule R116). -/
def decodeTxEnable (imm : Half) : Except IllegalSub Instr :=
  if imm = 0 then .ok (.setTxEnable false)
  else if imm = 1 then .ok (.setTxEnable true)
  else .error .badImmediate

/-- The command of header word `w0` and its operand words. The checks stand in the order of rule R116; an
unassigned opcode gives only `UNKNOWN_OPCODE` (rules R117, R302). -/
def decodeOperands (w0 : Word) (ops : List Word) : Except IllegalSub Instr :=
  if assignedOpcode (opField w0) = false then .error .unknownOpcode
  else if rsvField w0 ≠ 0 then .error .reservedBits
  else
    match (opField w0).toNat with
    | 1 => decodeReserved (operandWord ops 0) (.configure (highHalf w0) (lowHalf (operandWord ops 0))
        (operandWord ops 1) (operandWord ops 2) (operandWord ops 3))
    | 2 => decodeBare w0 .start
    | 3 => decodeBare w0 .stop
    | 4 => decodeTxEnable (highHalf w0)
    | 5 => decodeBare w0 .readStatus
    | 6 => .ok (.resolve (highHalf w0))
    | 7 => decodeReserved (operandWord ops 0) (.generate (highHalf w0) (lowHalf (operandWord ops 0))
        (operandWord ops 1) (operandWord ops 2))
    | 8 => decodeBare w0 .emitPulse
    | 9 => decodeBare w0 .sendHeartbeat
    | 10 => .ok (.sendLog (lowHalf (operandWord ops 0)) (highHalf (operandWord ops 0))
        (unpackText (highHalf w0).toNat (ops.drop 1)))
    | 11 => decodeReserved (operandWord ops 0) (.sendReply (lowHalf (operandWord ops 0))
        (unpackText (highHalf w0).toNat (ops.drop 1)))
    | _ => .error .unknownOpcode

/-- What the decoder finds at the head of the words the host has delivered. -/
inductive Decoded where
  /-- The command's words are not all there yet (rule R110: the block acts on whole commands). -/
  | waiting
  /-- An illegal command: its full length is consumed (rules R116, R117). -/
  | illegal (why : IllegalSub) (rest : List Word)
  /-- A command, and the words after it. -/
  | instr (i : Instr) (rest : List Word)
  deriving DecidableEq, Repr

/-- All words of the command at the head are there. -/
def commandReady : List Word → Bool
  | [] => false
  | w0 :: ws => decide (commandLength w0 - 1 ≤ ws.length)

/-- The decoder of the `CMD` port: total over any word sequence (rule R115). -/
def decodeCommand : List Word → Decoded
  | [] => .waiting
  | w0 :: ws =>
    if commandReady (w0 :: ws) then
      match decodeOperands w0 (ws.take (commandLength w0 - 1)) with
      | .ok i => .instr i (ws.drop (commandLength w0 - 1))
      | .error why => .illegal why (ws.drop (commandLength w0 - 1))
    else .waiting

/-! ## The frame decoder (rule R146) -/

/-- The payload of a frame of the given type. -/
def decodePayload (type : Nat) (pl : List Byte) : Except FrameReject Instr :=
  match type with
  | 0 => if pl.length = 4 then .ok (.frameHeartbeat (read32 pl 0)) else .error .badPayload
  | 1 =>
    if 4 ≤ pl.length then .ok (.frameLog (read16 pl 0) (read16 pl 2) (pl.drop 4)) else .error .badPayload
  | 2 => if 2 ≤ pl.length then .ok (.frameReply (read16 pl 0) (pl.drop 2)) else .error .badPayload
  | 3 =>
    if 32 ≤ pl.length ∧ read16 pl 0 = 32 ∧ (read16 pl 2).toNat % 2 = 0
        ∧ pl.length = 32 + (read16 pl 2).toNat then
      .ok (.framePulse (read32 pl 4) (read32 pl 8) (read32 pl 12) (read16 pl 16) (read16 pl 18)
        (read32 pl 20) (read32 pl 24) (read32 pl 28) (halves (pl.drop 32)))
    else .error .badPayload
  | _ => .error .badType

/-- The frame a byte string is, under the magic of the configuration (rule R146). -/
def decodeFrame (magic : Word) (bs : List Byte) : Except FrameReject Instr :=
  if bs.length < 8 then .error .tooShort
  else if read32 bs 0 ≠ magic then .error .badMagic
  else if bs.length ≠ 8 + (read16 bs 4).toNat then .error .badSize
  else decodePayload (read16 bs 6).toNat (bs.drop 8)

/-! ## The encoders -/

/-- A header word `{IMM16, RSV = 0, OP}` (rule R111). -/
def headerWord (op : BitVec 8) (imm : Half) : Word :=
  imm ++ (0#8 ++ op)

/-- An operand word of two halves (rule R113). -/
def halvesWord (low high : Half) : Word :=
  high ++ low

/-- Text packed four bytes a word, padded with zeros (rule R114). -/
def packText : List Byte → List Word
  | b0 :: b1 :: b2 :: b3 :: rest => ofBytes32 b0 b1 b2 b3 :: packText rest
  | [b0, b1, b2] => [ofBytes32 b0 b1 b2 0]
  | [b0, b1] => [ofBytes32 b0 b1 0 0]
  | [b0] => [ofBytes32 b0 0 0 0]
  | [] => []

/-- The words of a command (rules R111 to R114); a frame is no command. -/
def encodeCommand : Instr → Option (List Word)
  | .configure duration gain fStart fStop fReturn =>
    some [headerWord 1 duration, halvesWord gain 0, fStart, fStop, fReturn]
  | .start => some [headerWord 2 0]
  | .stop => some [headerWord 3 0]
  | .setTxEnable enable => some [headerWord 4 (if enable then 1 else 0)]
  | .readStatus => some [headerWord 5 0]
  | .resolve duration => some [headerWord 6 duration]
  | .generate count offset fStart fStop => some [headerWord 7 count, halvesWord offset 0, fStart, fStop]
  | .emitPulse => some [headerWord 8 0]
  | .sendHeartbeat => some [headerWord 9 0]
  | .sendLog category severity text =>
    some (headerWord 10 (BitVec.ofNat 16 text.length) :: halvesWord category severity :: packText text)
  | .sendReply status text =>
    some (headerWord 11 (BitVec.ofNat 16 text.length) :: halvesWord status 0 :: packText text)
  | .frameHeartbeat _ => none
  | .frameLog _ _ _ => none
  | .frameReply _ _ => none
  | .framePulse _ _ _ _ _ _ _ _ _ => none

/-- Heartbeat payload (rule R143). -/
def heartbeatPayload (timestamp : Word) : List Byte :=
  le32 timestamp

/-- Log payload (rule R144). -/
def logPayload (category severity : Half) (text : List Byte) : List Byte :=
  le16 category ++ (le16 severity ++ text)

/-- Reply payload (rule R145). -/
def replyPayload (status : Half) (text : List Byte) : List Byte :=
  le16 status ++ text

/-- Pulse payload (rule R142): the 32-byte header, then the samples. -/
def pulsePayload (seq timestamp status : Word) (gain duration : Half) (fStart fStop fReturn : F32)
    (samples : List Half) : List Byte :=
  le16 32 ++ (le16 (BitVec.ofNat 16 (2 * samples.length)) ++ (le32 seq ++ (le32 timestamp ++ (le32 status
    ++ (le16 gain ++ (le16 duration ++ (le32 fStart ++ (le32 fStop ++ (le32 fReturn
    ++ bytesOfHalves samples)))))))))

/-- A frame: magic, payload size, message type, payload (rule R140). -/
def frameImage (magic : Word) (type : Half) (pl : List Byte) : List Byte :=
  le32 magic ++ (le16 (BitVec.ofNat 16 pl.length) ++ (le16 type ++ pl))

/-- The bytes of a frame (rules R140 to R145); a command is no frame. -/
def encodeFrame (magic : Word) : Instr → Option (List Byte)
  | .frameHeartbeat timestamp => some (frameImage magic 0 (heartbeatPayload timestamp))
  | .frameLog category severity text => some (frameImage magic 1 (logPayload category severity text))
  | .frameReply status text => some (frameImage magic 2 (replyPayload status text))
  | .framePulse seq timestamp status gain duration fStart fStop fReturn samples =>
    some (frameImage magic 3 (pulsePayload seq timestamp status gain duration fStart fStop fReturn samples))
  | .configure _ _ _ _ _ => none
  | .start => none
  | .stop => none
  | .setTxEnable _ => none
  | .readStatus => none
  | .resolve _ => none
  | .generate _ _ _ _ => none
  | .emitPulse => none
  | .sendHeartbeat => none
  | .sendLog _ _ _ => none
  | .sendReply _ _ => none

/-- An instruction's encoding: words on `CMD`, or the bytes of a frame. -/
inductive Encoded where
  | words (ws : List Word)
  | bytes (bs : List Byte)
  deriving DecidableEq, Repr

/-- The encoder of every instruction. -/
def encode (magic : Word) (i : Instr) : Encoded :=
  match encodeCommand i with
  | some ws => .words ws
  | none => .bytes ((encodeFrame magic i).getD [])

/-! ## The opcode table's words -/

/-- A row of 16 bits whose number is a message type is a frame; every other row is a command. -/
def tableIsFrame (nbits w : Nat) : Bool :=
  decide (nbits ≤ 16 ∧ w < 4)

/-- The words of a command given as one number, bit 0 the lowest bit of the first word, with every word that the
number does not reach 0, as many words as the header asks for. -/
def tableWords (w : Nat) : List Word :=
  let w0 : Word := BitVec.ofNat 32 w
  w0 :: (List.range (commandLength w0 - 1)).map fun k => BitVec.ofNat 32 (w >>> (32 * (k + 1)))

/-- The shortest payload size of a frame of each type (rule R146). -/
def shortestPayload (type : Nat) : Nat :=
  match type with
  | 0 => 4
  | 1 => 4
  | 2 => 2
  | _ => 32

/-- The shortest frame of a type, every field 0 but those that rule R146 fixes. -/
def tableFrame (magic : Word) (type : Nat) : List Byte :=
  frameImage magic (BitVec.ofNat 16 type)
    (if type = 3 then le16 32 ++ List.replicate 30 0 else List.replicate (shortestPayload type) 0)

/-- The instruction the decoder reads from a word of spec/opcode_table.json (host interface). -/
def decodeTableWord (nbits w : Nat) : Option Instr :=
  if tableIsFrame nbits w then
    match decodeFrame Config.tc1.frameMagic (tableFrame Config.tc1.frameMagic w) with
    | .ok i => some i
    | .error _ => none
  else
    match decodeCommand (tableWords w) with
    | .instr i _ => some i
    | .illegal _ _ => none
    | .waiting => none

end Sys2Proof
end

