-- ==== Sys2Proof/Machine/State.lean ====
section
/-! DEFINITION. The state of the block as plain data (10_state.md), the reasons a step can stop, the status codes of a
response (30_encoding.md rules R119, R120), and the machine right after reset (70_reset_and_hazards.md rule R340). -/

namespace Sys2Proof.Machine

/-- `STATE` (rule R33). The value 3 is never taken. -/
inductive Mode where
  | idle
  | configured
  | running
  deriving DecidableEq, Repr

/-- `REQ`, the bound WaveformRequest (rule R37). -/
structure Request where
  valid : Bool
  duration : Half
  gain : Half
  fStart : F32
  fStop : F32
  fReturn : F32
  deriving DecidableEq, Repr

/-- No request bound: every field 0 (rule R37). -/
def Request.none : Request := ⟨false, 0, 0, 0, 0, 0⟩

/-- What `resolve` computes: a TimingProfile over the naturals (rule R161). -/
structure TimingProfile where
  outLen : Nat
  tsf : Nat
  holdCount : Nat
  spc : Nat
  inLen : Nat
  chDelay : Nat
  outInterval : Nat
  deriving DecidableEq, Repr

/-- `PROF`, the bound TimingProfile, each field held in 32 bits (rule R38). -/
structure BoundProfile where
  valid : Bool
  outLen : Word
  tsf : Word
  holdCount : Word
  spc : Word
  chDelay : Word
  outInterval : Word
  inLen : Word
  deriving DecidableEq, Repr

/-- No profile bound: every field 0 (rule R38). -/
def BoundProfile.none : BoundProfile := ⟨false, 0, 0, 0, 0, 0, 0, 0⟩

/-- The `WRAP` policies (rule R40). The value 3 is reserved and never written. -/
inductive Wrap where
  | none
  | circular
  | pingPong
  deriving DecidableEq, Repr

/-- `TM_DESC`, the timing master's descriptor (rule R39). -/
structure TimingDesc where
  period : Word
  chDelay : Word
  outInterval : Word
  tsf : Word
  deriving DecidableEq, Repr

/-- No descriptor programmed (rule R39). -/
def TimingDesc.zero : TimingDesc := ⟨0, 0, 0, 0⟩

/-- `OD_DESC` and `SMP_DESC`, the buffer descriptors (rule R39). -/
structure BufferDesc where
  base : Word
  stride : Word
  length : Word
  wrap : Wrap
  deriving DecidableEq, Repr

/-- No descriptor programmed (rules R39, R40). -/
def BufferDesc.zero : BufferDesc := ⟨0, 0, 0, .none⟩

/-- A SampleBuffer over buffer memory; `len` counts 16-bit elements (rule R41). -/
structure SampleBuf where
  base : Word
  len : Word
  deriving DecidableEq, Repr

/-- The "defined 'empty' state with zero length" (rule R41). -/
def SampleBuf.empty : SampleBuf := ⟨0, 0⟩

/-- The two SampleBuffers, as the event history names them (rule R65). -/
inductive BufId where
  | out
  | inp
  deriving DecidableEq, Repr

/-- One record of the event history (rule R65). -/
inductive Event where
  | alloc (b : BufId) (base len : Word)
  | free (b : BufId)
  | frame (bytes : List Byte)
  | gain (g : Half)
  | odOut (code : Half)
  | handler (seq ts : Word) (parity : Bool)
  deriving DecidableEq, Repr

/-- The sub-causes of `CONFIG_ERROR` (rule R120). -/
inductive ConfigSub where
  | unsupportedDuration
  | zeroScale
  | inexactDivision
  | countRange
  | granularity
  deriving DecidableEq, Repr

/-- The sub-causes of `RANGE_ERROR` (rule R120). -/
inductive RangeSub where
  | endpoint
  | coverageExhausted
  | belowCoverage
  | codeRange
  | region
  deriving DecidableEq, Repr

/-- The sub-causes of `OUT_OF_SPACE` (rule R120). -/
inductive SpaceSub where
  | scratch
  | sizeField
  deriving DecidableEq, Repr

/-- The status of a response: code and sub-cause (rules R119, R120). -/
inductive Status where
  | ok
  | configError (sub : ConfigSub)
  | rangeError (sub : RangeSub)
  | allocationError
  | outOfSpace (sub : SpaceSub)
  | hardwareError
  | invalidState
  | illegalCommand (sub : IllegalSub)
  | noPulse
  deriving DecidableEq, Repr

/-- The state of the block. Every piece of state of 10_state.md stands under its own name; the fields from `resp`
on are the ports' and the model's own (INVENTORY.md, State). -/
structure State where
  /-- The implementation parameters (rule R7): no step changes them. -/
  cfg : Config
  /-- `STATE` (rule R33). -/
  mode : Mode
  /-- `CAL_FAIL` (rule R34). -/
  calFail : Bool
  /-- `TX_EN` (rule R35). -/
  txEn : Bool
  /-- `TM_EN` (rule R36). -/
  tmEn : Bool
  /-- `OD_EN` (rule R36). -/
  odEn : Bool
  /-- `OD_OUT_EN` (rule R36). -/
  odOutEn : Bool
  /-- `SMP_EN` (rule R36). -/
  smpEn : Bool
  /-- `REQ` (rule R37). -/
  req : Request
  /-- `PROF` (rule R38). -/
  prof : BoundProfile
  /-- `TM_DESC` (rule R39). -/
  tmDesc : TimingDesc
  /-- `OD_DESC` (rule R39). -/
  odDesc : BufferDesc
  /-- `SMP_DESC` (rule R39). -/
  smpDesc : BufferDesc
  /-- `OUT_BUF` (rule R41). -/
  outBuf : SampleBuf
  /-- `IN_BUF` (rule R41). -/
  inBuf : SampleBuf
  /-- `SEQ` (rule R42). -/
  seq : Word
  /-- `TS` (rule R43). -/
  ts : Word
  /-- `PARITY` (rule R44). -/
  parity : Bool
  /-- `LAST_EMITTED_SEQ` (rule R46). -/
  lastEmitted : Word
  /-- `IRQ_LATCHED` (rule R48). -/
  irq : Bool
  /-- `OD_IDX` (rule R49). -/
  odIdx : Word
  /-- `SMP_IDX` (rule R49). -/
  smpIdx : Word
  /-- `TM_PHASE` (rule R49). -/
  tmPhase : Word
  /-- `CYCLE`: the value last written to it (rule R50). Every READ is a draw and does not look here. -/
  cycle : Word
  /-- The last code the output driver emitted since START, none before the first (rule R64). -/
  odLast : Option Half
  /-- The written bytes of `BUF` (rules R53, R80), addresses strictly rising. -/
  buf : List Host.Cell
  /-- The written bytes of `SCR` (rules R53, R82), addresses strictly rising. -/
  scr : List Host.Cell
  /-- The event history, oldest first (rule R65). -/
  history : List Event
  /-- The responses given on `RESP`, oldest first, each its header word and its result words (rule R118). -/
  resp : List (List Word)
  /-- The words the host has delivered on `CMD` and the sequencer has not taken (rule R110). -/
  cmd : List Word
  /-- A frame placed for the framer; empty in every run from reset (notes/assumptions/4.md). -/
  frameReq : List Byte
  /-- The agents' next turns, as far as they are decided; past them the choice is free (rule R321). -/
  turns : List Turn
  /-- The model's counter of draws: the free values are applied to it. -/
  draws : Nat
  /-- The model's counter of resets: it names the unwritten contents of the memories (rule R84). -/
  resets : Nat
  deriving DecidableEq, Repr

/-- Why the machine stops. Each is one of the model-internal faults of 93_implementation_defined.md §3: it marks a
state that no rule reaches, never a behaviour of the block. All are safe: the machine stops where the spec gives no
meaning. -/
inductive Fault where
  /-- A buffer element at or beyond the buffer's length (rule R81). Raised by the element operations. -/
  | elementIndex
  /-- An access outside its address space (rule R86). Raised by the byte operations. -/
  | outsideSpace
  /-- An element at an odd byte address (rule R88). Raised by the element operations. -/
  | misaligned
  /-- A remainder by zero (rule R11 requires a positive divisor). Raised by the tick. -/
  | zeroModulus
  deriving DecidableEq, Repr

/-- What the model gives no step for. -/
inductive Refusal where
  /-- An instruction whose arm gives no meaning yet. Raised by `exec` alone. Safe. -/
  | notModelled (mnemonic : String)
  /-- Parameters that violate rule R8: "refused by a model". Raised by `step`. Safe. -/
  | illFormedConfiguration
  /-- The host delivers a word while a whole command waits for its response (rules R61, R361; 93 §3: "refuse (the
  model has no step for it)"). Raised by `step`. Safe. -/
  | overlappingCommand
  /-- What was placed for the framer is no well-formed frame (rule R146). Raised by `step`. Safe. -/
  | malformedFrame (why : FrameReject)
  deriving DecidableEq, Repr

/-- The reset values of rule R340, for a configuration, a calibration answer (rule R341) and the value the cycle
counter comes up with (rule R50: unspecified). -/
def State.resetWith (c : Config) (calFails : Bool) (cycleUp : Word) : State where
  cfg := c
  mode := .idle
  calFail := calFails
  txEn := false
  tmEn := false
  odEn := false
  odOutEn := false
  smpEn := false
  req := .none
  prof := .none
  tmDesc := .zero
  odDesc := .zero
  smpDesc := .zero
  outBuf := .empty
  inBuf := .empty
  seq := 0
  ts := 0
  parity := false
  lastEmitted := 0
  irq := false
  odIdx := 0
  smpIdx := 0
  tmPhase := 0
  cycle := cycleUp
  odLast := none
  buf := []
  scr := []
  history := []
  resp := []
  cmd := []
  frameReq := []
  turns := []
  draws := 0
  resets := 0

/-- The machine right after reset. Rule R340 gives every value but three, which the log names: the configuration
(notes/assumptions/1.md), the calibration answer (2.md) and the cycle counter (3.md). -/
def State.reset : State :=
  State.resetWith Config.tc1 false 0

end Sys2Proof.Machine
end

