-- ==== Sys2Proof/Machine/Ops.lean ====
section
/-! DEFINITION. The named operations over the state: the byte memories (20_memory.md), the responses and the error
"entry" (60_exceptions.md rule R325), the interrupt's entry and return (rules R326, R327), the buffer manager's release
and allocation (42_buffer_manager.md), and the synchronizer's shared steps (43_synchronizer.md). -/

namespace Sys2Proof.Machine

/-! ## Parameters (rules R7, R8) -/

/-- Each entry is at most the next one: `b[k] ≤ b[k+1]` (rule R8). -/
def ascending : List Rat → Bool
  | a :: b :: rest => decide (a ≤ b) && ascending (b :: rest)
  | _ => true

/-- The types of the parameter table of rule R7 and the conditions of rule R8 (notes/assumptions/7.md). -/
def configOk (c : Config) : Bool :=
  ascending c.cal.breakpoints
  && decide (1 ≤ c.cal.cubics.length)
  && decide (c.cal.breakpoints.length = c.cal.cubics.length + 1)
  && decide (1 ≤ c.maxCode) && decide (c.maxCode ≤ 65535)
  && decide (8 ≤ c.scratchCapacity)
  && decide (1 ≤ c.settleCount)
  && decide (1 ≤ c.busClockHz)
  && decide (c.fMin ≤ c.fMax)
  && decide (0 < c.vref)
  && decide (1 ≤ c.dmaGranule)

/-! ## Counts held in 32 bits -/

/-- A counter value in a 32-bit field (rules R38, R39, R121). Of a count that 32 bits do not hold the spec states no
value: it is free (notes/assumptions/8.md). -/
def heldIn32 (n : Nat) : Word :=
  if n < 4294967296 then BitVec.ofNat 32 n else Config.wideWord n

/-- A free value among those that a length, a base or a factor `n` may show: at least 2, and even where `n` is. Rules R88,
R171 and R211 say of every profile that `IN_LEN` and the bases are even and that no length or factor is 0. -/
def wideLength (n : Nat) : Word :=
  if 2 ≤ (Config.wideWord n).toNat ∧ (Config.wideWord n).toNat % 2 = n % 2 then Config.wideWord n
  else BitVec.ofNat 32 (2 + n % 2)

/-- A buffer length, a base or the time-scale factor in a 32-bit field (rules R38, R39, R41, R121); one that 32 bits do
not hold shows a free value (notes/assumptions/8.md). -/
def heldLength (n : Nat) : Word :=
  if n < 4294967296 then BitVec.ofNat 32 n else wideLength n

/-! ## Byte memory (rules R80, R82, R84, R86) -/

/-- The written bytes of one space. -/
abbrev Memory := List Host.Cell

/-- The canonical form: addresses strictly rising. An unlisted byte reads as a free value, which no listed byte can
be found equal to, so every written byte is listed (notes/assumptions/6.md). -/
abbrev Memory.wf (m : Memory) : Prop :=
  m.Pairwise (fun x y => x.1 < y.1)

/-- The byte at `a`, and `free a` where nothing has written it. -/
def Memory.byteAt (m : Memory) (free : Nat → Byte) (a : Nat) : Byte :=
  match m.find? (fun c => c.1 == a) with
  | some c => c.2
  | none => free a

/-- The cells of a byte string laid out from address `a` up. -/
def cellsFrom (a : Nat) : List Byte → Memory
  | [] => []
  | b :: rest => (a, b) :: cellsFrom (a + 1) rest

/-- The memory with the bytes `bs` at `a` and up. -/
def Memory.write (m : Memory) (a : Nat) (bs : List Byte) : Memory :=
  m.filter (fun c => decide (c.1 < a)) ++ (cellsFrom a bs ++ m.filter (fun c => decide (a + bs.length ≤ c.1)))

/-- The capacity of a space (rules R80, R82). -/
def capacityOf (c : Config) : Space → Nat
  | .buf => c.bufCapacity
  | .scr => c.scratchCapacity

/-- The written bytes of a space. -/
def State.mem (s : State) : Space → Memory
  | .buf => s.buf
  | .scr => s.scr

/-- The state with the written bytes of a space replaced. -/
def State.withMem (s : State) (sp : Space) (m : Memory) : State :=
  match sp with
  | .buf => { s with buf := m }
  | .scr => { s with scr := m }

/-- The byte at `a` of a space; what nothing has written since reset reads as the free value (rule R84). -/
def State.byteAt (s : State) (sp : Space) (a : Nat) : Byte :=
  (s.mem sp).byteAt (Config.unwrittenByte sp s.resets) a

/-- `MemRead(sp, a, n)` (rule R86): a model-internal fault outside the space. -/
def memRead (s : State) (sp : Space) (a n : Nat) : Except Fault (List Byte) :=
  if a + n ≤ capacityOf s.cfg sp then .ok ((List.range n).map fun i => s.byteAt sp (a + i))
  else .error .outsideSpace

/-- `MemWrite(sp, a, n, v)` (rule R86): a model-internal fault outside the space. -/
def memWrite (s : State) (sp : Space) (a : Nat) (bs : List Byte) : Except Fault State :=
  if a + bs.length ≤ capacityOf s.cfg sp then .ok (s.withMem sp ((s.mem sp).write a bs))
  else .error .outsideSpace

/-! ## Responses and the event history -/

/-- The header word `r0 = {NRES, SUB, CODE}` (rule R118). -/
def responseHeader (code sub : BitVec 8) (nres : Nat) : Word :=
  BitVec.ofNat 16 nres ++ (sub ++ code)

/-- `CODE` (rule R119). -/
def Status.code : Status → BitVec 8
  | .ok => 0
  | .configError _ => 1
  | .rangeError _ => 2
  | .allocationError => 3
  | .outOfSpace _ => 4
  | .hardwareError => 5
  | .invalidState => 6
  | .illegalCommand _ => 7
  | .noPulse => 8

/-- `SUB` (rule R120); 0 whenever `CODE = OK`. -/
def Status.sub : Status → BitVec 8
  | .ok => 0
  | .configError .unsupportedDuration => 1
  | .configError .zeroScale => 2
  | .configError .inexactDivision => 3
  | .configError .countRange => 4
  | .configError .granularity => 5
  | .rangeError .endpoint => 1
  | .rangeError .coverageExhausted => 2
  | .rangeError .belowCoverage => 3
  | .rangeError .codeRange => 4
  | .rangeError .region => 5
  | .allocationError => 1
  | .outOfSpace .scratch => 1
  | .outOfSpace .sizeField => 2
  | .hardwareError => 1
  | .invalidState => 1
  | .illegalCommand .unknownOpcode => 1
  | .illegalCommand .reservedBits => 2
  | .illegalCommand .badImmediate => 3
  | .noPulse => 1

/-- The words of a response (rule R118). -/
def responseWords (st : Status) (ws : List Word) : List Word :=
  responseHeader st.code st.sub ws.length :: ws

/-- `respond(code, sub, words)`: the command ends with this response (rules R10, R118). -/
def State.respond (s : State) (st : Status) (ws : List Word) : State :=
  { s with resp := s.resp ++ [responseWords st ws] }

/-- The error "entry": the response is all there is of it. It saves no state, changes no context, mask or mode and
transfers control nowhere, and `NRES = 0` (rules R118, R301, R325). -/
def State.raise (s : State) (st : Status) : State :=
  s.respond st []

/-- One draw taken (rule R10): the next one is another value. -/
def State.drawn (s : State) : State :=
  { s with draws := s.draws + 1 }

/-! ## The interrupt (rules R246, R326, R327) -/

/-- Interrupt entry and the handler's body in one atomic step (rules R246, R326): the latch is cleared, the sequence
number goes up by one, the time stamp is the counter at the trigger edge, and the parity is the new sequence number's
lowest bit while `TX_EN` is set. Nothing is saved. -/
def State.takeInterrupt (s : State) (ts : Word) : State :=
  let seq := s.seq + 1
  let parity := s.txEn && seq.getLsbD 0
  { s with irq := false, seq := seq, ts := ts, parity := parity,
           history := s.history ++ [Event.handler seq ts parity] }

/-- Interrupt return (rule R327): nothing is restored, because nothing was saved. -/
def State.interruptReturn (s : State) : State :=
  s

/-! ## The buffer manager (42_buffer_manager.md) -/

/-- The records `release()` adds: one `FREE` for each buffer that is not empty (rule R212). -/
def releaseEvents (s : State) : List Event :=
  (if s.outBuf.len = 0 then [] else [Event.free .out]) ++ (if s.inBuf.len = 0 then [] else [Event.free .inp])

/-- A buffer after `release()`: one with elements is emptied, one without is left as it is (rule R212). -/
def releasedBuf (b : SampleBuf) : SampleBuf :=
  if b.len = 0 then b else .empty

/-- `release()` (rule R212). -/
def State.release (s : State) : State :=
  { s with history := s.history ++ releaseEvents s, outBuf := releasedBuf s.outBuf, inBuf := releasedBuf s.inBuf }

/-- The bytes both buffers need: elements are u16 (rule R210, decision D25). -/
def bytesNeeded (p : TimingProfile) : Nat :=
  2 * p.outLen + 2 * p.inLen

/-- The two buffers of a profile and their records (rule R210); the storage handed out holds free bytes until it is
written (rules R84, R211). -/
def State.carve (s : State) (p : TimingProfile) : State :=
  { s with
    outBuf := ⟨0, heldLength p.outLen⟩
    inBuf := ⟨heldLength (2 * p.outLen), heldLength p.inLen⟩
    buf := Memory.write s.buf 0 ((List.range (bytesNeeded p)).map (Config.allocatedByte s.draws))
    draws := s.draws + 1
    history := s.history ++ [Event.alloc .out 0 (heldLength p.outLen),
      Event.alloc .inp (heldLength (2 * p.outLen)) (heldLength p.inLen)] }

/-- `allocate(p)` (rules R210, R213): `.error` is `ALLOCATION_ERROR(CAPACITY)`, with both buffers released. -/
def allocate (s : State) (p : TimingProfile) : Except State State :=
  if s.cfg.bufCapacity < bytesNeeded p then .error s.release else .ok (s.release.carve p)

/-! ## The synchronizer's shared steps (43_synchronizer.md) -/

/-- `enter_idle()`, the rollback of a failed CONFIGURE (rule R222). -/
def State.enterIdle (s : State) : State :=
  { s.release with
    tmDesc := .zero, odDesc := .zero, smpDesc := .zero, req := .none, prof := .none, mode := .idle }

/-- `STATE` after `stop_body()` (rule R235). -/
def stoppedMode : Mode → Mode
  | .running => .configured
  | .idle => .idle
  | .configured => .configured

/-- `stop_body()` (rule R235). -/
def State.stopBody (s : State) : State :=
  { s with tmEn := false, odEn := false, smpEn := false, odOutEn := false, mode := stoppedMode s.mode }

/-- Step 1 of CONFIGURE: the implicit stop of a running block, and the discard of a pending pulse (rules R221,
R229). -/
def State.configureEntry (s : State) : State :=
  let s1 := if s.mode = .running then s.stopBody else s
  { s1 with lastEmitted := s1.seq }

/-- A profile held in the 32-bit fields of `PROF`, with `valid = 1` (rules R38, R221). -/
def boundProfile (p : TimingProfile) : BoundProfile :=
  ⟨true, heldLength p.outLen, heldLength p.tsf, heldIn32 p.holdCount, heldIn32 p.spc, heldIn32 p.chDelay,
    heldIn32 p.outInterval, heldLength p.inLen⟩

/-- `program_descriptors(p)` (rule R226). -/
def State.programDescriptors (s : State) (p : TimingProfile) : State :=
  { s with
    tmDesc := ⟨heldIn32 p.spc, heldIn32 p.chDelay, heldIn32 p.outInterval, heldLength p.tsf⟩
    odDesc := ⟨s.outBuf.base, 2, heldLength p.outLen, .circular⟩
    smpDesc := ⟨s.inBuf.base, 2, heldLength p.inLen, .pingPong⟩ }

/-- The binding at the end of a successful CONFIGURE and the gain event (rules R221, R227). -/
def State.bind (s : State) (q : Request) (p : TimingProfile) : State :=
  { s with req := q, prof := boundProfile p, mode := .configured, history := s.history ++ [Event.gain q.gain] }

/-- The enabling of the three subsystems (rules R230, R231): one atomic masked section. `OD_OUT` shows no code until
the first emission (rule R64). -/
def State.startBody (s : State) : State :=
  { s with
    cycle := 0, tmPhase := 0, odIdx := 0, smpIdx := 0
    tmEn := true, odEn := true, odOutEn := true, smpEn := true
    odLast := none, mode := .running }

/-! ## The send unit (44_message_framer.md) -/

/-- `send(type, pl)` (rules R270, R271): the status, and the state with the frame in `SCR` and on `SINK`. It fails
closed: on `OUT_OF_SPACE` nothing is written and nothing delivered. -/
def send (s : State) (type : Half) (pl : List Byte) : Status × State :=
  if s.cfg.scratchCapacity < 8 + pl.length then (.outOfSpace .scratch, s)
  else if 65535 < pl.length then (.outOfSpace .sizeField, s)
  else
    (.ok, { s with
      scr := Memory.write s.scr 0 (frameImage s.cfg.frameMagic type pl)
      history := s.history ++ [Event.frame (frameImage s.cfg.frameMagic type pl)] })

/-- A sending command: `r <- send(type, pl) ; respond(r.code, r.sub, [])` (rules R280 to R282, R285). -/
def sendAndRespond (s : State) (type : Half) (pl : List Byte) : State :=
  (send s type pl).2.respond (send s type pl).1 []

/-! ## Reset (70_reset_and_hazards.md) -/

/-- Reset as a step (rules R340, R341, R343): every piece of state at its reset value, the calibration answer in
`CAL_FAIL`, a draw in `CYCLE`, a partly delivered command discarded. The parameters, the schedule and the model's
counters go on. -/
def State.resetStep (s : State) (calFails : Bool) : State :=
  { State.resetWith s.cfg calFails (Config.cycleRead s.draws) with
    turns := s.turns, draws := s.draws + 1, resets := s.resets + 1 }

end Sys2Proof.Machine
end

