-- ==== Sys2Proof/Machine/Flags.lean ====
section
/-! DEFINITION. The flags and the words computed from the state: `STATUS_WORD` (10_state.md rule R54), `PULSE_PENDING`
(rule R47), the levels of `TRIG_OUT` and `OD_OUT` (rules R63, R64), and the encodings of `STATE` and `WRAP` (rules R33,
R40). -/

namespace Sys2Proof.Machine

/-- The 2-bit encoding of `STATE` (rule R33). -/
def Mode.bits : Mode → BitVec 2
  | .idle => 0
  | .configured => 1
  | .running => 2

/-- The 2-bit encoding of `WRAP` (rule R40). -/
def Wrap.bits : Wrap → BitVec 2
  | .none => 0
  | .circular => 1
  | .pingPong => 2

/-- `PULSE_PENDING = (SEQ ≠ LAST_EMITTED_SEQ)` (rule R47). -/
def State.pulsePending (s : State) : Bool :=
  decide (s.seq ≠ s.lastEmitted)

/-- `TRIG_OUT = PARITY ∧ TX_EN` (rule R63). -/
def State.trigOut (s : State) : Bool :=
  s.parity && s.txEn

/-- `OD_OUT`: `none` is `Disabled` (rule R64). -/
def State.odOut (s : State) : Option Half :=
  if s.odOutEn then s.odLast else none

/-- `STATUS_WORD` (rule R54), its bits from 31 down. -/
def State.statusWord (s : State) : Word :=
  (0#21 : BitVec 21) ++ (BitVec.ofBool s.irq ++ (BitVec.ofBool s.smpEn ++ (BitVec.ofBool s.odOutEn
    ++ (BitVec.ofBool s.odEn ++ (BitVec.ofBool s.tmEn ++ (BitVec.ofBool s.parity ++ (BitVec.ofBool s.txEn
    ++ (BitVec.ofBool s.pulsePending ++ (BitVec.ofBool s.calFail ++ s.mode.bits)))))))))

/-- The 32-bit word `zext_32(parity)` of the Pulse header's status bitfield (rules R142, R287). -/
def parityWord (p : Bool) : Word :=
  BitVec.ofNat 32 p.toNat

end Sys2Proof.Machine
end

