-- ==== Sys2Proof/Machine/Operands.lean ====
section
/-! DEFINITION. The operand forms: binary32 values (00_scope.md rule R11), rounding, and the 16-bit elements of the two
sample buffers (20_memory.md rules R81, R87, R88). -/

namespace Sys2Proof.Machine

/-! ## binary32 -/

/-- The exponent field of a binary32 pattern. -/
def exponent32 (f : F32) : Nat :=
  (f.extractLsb' 23 8).toNat

/-- The fraction field of a binary32 pattern. -/
def fraction32 (f : F32) : Nat :=
  (f.extractLsb' 0 23).toNat

/-- The sign bit of a binary32 pattern. -/
def sign32 (f : F32) : Bool :=
  f.getLsbD 31

/-- `isfinite32(f)`: neither NaN nor infinite (rule R11). -/
def isFinite32 (f : F32) : Bool :=
  decide (exponent32 f ≠ 255)

/-- The pattern is +0.0 or −0.0 (rule R190). -/
def isZero32 (f : F32) : Bool :=
  decide (f = 0x00000000#32 ∨ f = 0x80000000#32)

/-- The magnitude of a finite binary32 in units of 2^-149. -/
def magnitude32 (f : F32) : Nat :=
  if exponent32 f = 0 then fraction32 f else (8388608 + fraction32 f) * 2 ^ (exponent32 f - 1)

/-- `val32(f)`: the exact value of a finite binary32 (rule R11). -/
def val32 (f : F32) : Rat :=
  mkRat (if sign32 f then -(magnitude32 f : Int) else (magnitude32 f : Int)) (2 ^ 149)

/-! ## Rounding -/

/-- `round(q) = sign(q) · ⌊|q| + 1/2⌋`: to the nearest integer, ties away from zero (rule R11). -/
def roundAway (q : Rat) : Int :=
  if q < 0 then -((-q + 1 / 2).floor) else (q + 1 / 2).floor

/-! ## Buffer elements -/

/-- The byte address of element `i` (rule R81). -/
def elementAddr (b : SampleBuf) (i : Nat) : Nat :=
  b.base.toNat + 2 * i

/-- `OUT[i]` or `IN[i]` as a value: two bytes, the low one at the lower address (rules R81, R85). -/
def elementAt (s : State) (b : SampleBuf) (i : Nat) : Half :=
  ofBytes16 (s.byteAt .buf (elementAddr b i)) (s.byteAt .buf (elementAddr b i + 1))

/-- The checks of an access to the `n` elements from `i` on, of a buffer of `len` elements (rules R81, R88). -/
def elementCheck (b : SampleBuf) (len i n : Nat) : Option Fault :=
  if len < i + n then some .elementIndex
  else if elementAddr b i % 2 ≠ 0 then some .misaligned
  else none

/-- A read of element `i` (rules R81, R87): the u16 `MemRead(BUF, base + 2i, 2)`. -/
def readElement (s : State) (b : SampleBuf) (i : Nat) : Except Fault Half :=
  match elementCheck b b.len.toNat i 1 with
  | some f => .error f
  | none =>
    match memRead s .buf (elementAddr b i) 2 with
    | .error f => .error f
    | .ok bs => .ok (read16 bs 0)

/-- A read of the `n` elements from `i` on, one at a time (rule R87). -/
def readElements (s : State) (b : SampleBuf) (i : Nat) : Nat → Except Fault (List Half)
  | 0 => .ok []
  | n + 1 =>
    match readElement s b i with
    | .error f => .error f
    | .ok v =>
      match readElements s b (i + 1) n with
      | .error f => .error f
      | .ok vs => .ok (v :: vs)

/-- A write of the elements `vs` from `i` on, to a buffer of `len` elements (rules R87, R188). Where there is no element
there is no access. -/
def writeElements (s : State) (b : SampleBuf) (len i : Nat) (vs : List Half) : Except Fault State :=
  if vs = [] then .ok s
  else
    match elementCheck b len i vs.length with
    | some f => .error f
    | none => memWrite s .buf (elementAddr b i) (bytesOfHalves vs)

/-- `i mod len` for a cursor over a descriptor's length; rule R11 requires `len > 0`. -/
def cursorMod (i : Nat) (len : Nat) : Except Fault Word :=
  if len = 0 then .error .zeroModulus else .ok (BitVec.ofNat 32 (i % len))

end Sys2Proof.Machine
end

