-- ==== Sys2Proof/Machine/Agents.lean ====
section
/-! DEFINITION. The agents beside the command sequencer (10_state.md rule R30): the tick of the subsystems, the interrupt
handler, the host at the `CMD` port and reset; and the fetch of a command or of a placed frame. -/

namespace Sys2Proof.Machine

/-! ## The tick (rules R250 to R252) -/

/-- The output driver's part of a tick: the code at `OD_IDX` is emitted, and the cursor goes round (rule R250). -/
def tickOutput (s : State) : Except Fault State :=
  match readElement s s.outBuf s.odIdx.toNat with
  | .error f => .error f
  | .ok code =>
    match cursorMod (s.odIdx.toNat + 1) s.odDesc.length.toNat with
    | .error f => .error f
    | .ok i =>
      .ok { s with odLast := some code, odIdx := i, history := s.history ++ [Event.odOut code] }

/-- The sampler's part of a tick that completes a sampler period: the sample is written, the cursor goes round, and
the end of a half latches the interrupt (rules R250, R251). -/
def tickSample (s : State) (adc : Half) : Except Fault State :=
  match writeElements s s.inBuf s.inBuf.len.toNat s.smpIdx.toNat [adc] with
  | .error f => .error f
  | .ok s' =>
    match cursorMod (s.smpIdx.toNat + 1) s.smpDesc.length.toNat with
    | .error f => .error f
    | .ok i =>
      match cursorMod i.toNat (s.smpDesc.length.toNat / 2) with
      | .error f => .error f
      | .ok r => .ok { s' with tmPhase := 0, smpIdx := i, irq := s.irq || decide (r = 0) }

/-- `tick()` (rule R250). -/
def tickStep (s : State) (adc : Half) : Except Fault State :=
  match tickOutput s with
  | .error f => .error f
  | .ok s' =>
    if s'.tmPhase + 1 = s'.tmDesc.tsf then tickSample s' adc else .ok { s' with tmPhase := s'.tmPhase + 1 }

/-- The subsystems' turn: they have a step whenever `STATE = Running` (rule R250). -/
def tickTurn (s : State) (adc : Half) : Host.Outcome State Fault Refusal :=
  if s.mode = .running then
    match tickStep s adc with
    | .error f => .fault f
    | .ok s' => .next s'
  else .next s

/-! ## The handler, the host and reset -/

/-- The handler's turn: it has a step whenever `IRQ_LATCHED = 1` (rules R246, R326, R327). -/
def handlerTurn (s : State) (ts : Word) : Host.Outcome State Fault Refusal :=
  if s.irq then .next (s.takeInterrupt ts).interruptReturn else .next s

/-- The host's turn: one more word on `CMD` (rule R110), and no step for it while a whole command waits for its
response (rules R61, R361). -/
def deliverTurn (s : State) (w : Word) : Host.Outcome State Fault Refusal :=
  if commandReady s.cmd then .refused .overlappingCommand else .next { s with cmd := s.cmd ++ [w] }

/-- Reset's turn (rules R340, R341, R343). -/
def resetTurn (s : State) (calFails : Bool) : Host.Outcome State Fault Refusal :=
  .next (s.resetStep calFails)

/-! ## The fetch -/

/-- What the command sequencer or the framer does next. -/
inductive Fetched where
  /-- Nothing to take: the turn passes. -/
  | waiting
  /-- An illegal command: its words are consumed and its response given. -/
  | illegal (s : State)
  /-- An instruction, and the state with its words consumed. -/
  | instr (i : Instr) (s : State)
  /-- What was placed for the framer is no well-formed frame. -/
  | malformed (why : FrameReject)

/-- The command at the head of `CMD` (rules R110 to R117). An illegal command changes no state but for its response
(rules R116, R118). -/
def fetchCommand (s : State) : Fetched :=
  match decodeCommand s.cmd with
  | .waiting => .waiting
  | .illegal why rest => .illegal (State.raise { s with cmd := rest } (.illegalCommand why))
  | .instr i rest => .instr i { s with cmd := rest }

/-- The frame placed for the framer (rule R146; notes/assumptions/4.md). -/
def fetchFrame (s : State) : Fetched :=
  if s.frameReq = [] then .waiting
  else
    match decodeFrame s.cfg.frameMagic s.frameReq with
    | .error why => .malformed why
    | .ok i => .instr i { s with frameReq := [] }

/-- The state with a table word's command on `CMD` and the sequencer's turn next (host interface). -/
def placeCommand (s : State) (w : Nat) : State :=
  { s with cmd := tableWords w, turns := Turn.command :: s.turns }

/-- The state with a table word's frame before the framer and the framer's turn next (host interface). -/
def placeFrame (s : State) (type : Nat) : State :=
  { s with frameReq := tableFrame s.cfg.frameMagic type, turns := Turn.framer :: s.turns }

end Sys2Proof.Machine
end

