-- ==== Sys2Proof/Machine/Framer.lean ====
section
/-! DEFINITION. The binary message framer (44_message_framer.md): the four commands that send a frame, and the four frames
themselves, each handed to the send unit. -/

namespace Sys2Proof.Machine

/-- SEND_HEARTBEAT (rule R280): the time stamp is a draw. -/
def execSendHeartbeat (s : State) : Host.Outcome State Fault Refusal :=
  .next (sendAndRespond s.drawn 0 (heartbeatPayload (Config.cycleRead s.draws)))

/-- SEND_LOG (rule R281). -/
def execSendLog (category severity : Half) (text : List Byte) (s : State) : Host.Outcome State Fault Refusal :=
  .next (sendAndRespond s 1 (logPayload category severity text))

/-- SEND_REPLY (rule R282). -/
def execSendReply (status : Half) (text : List Byte) (s : State) : Host.Outcome State Fault Refusal :=
  .next (sendAndRespond s 2 (replyPayload status text))

/-! ## The Pulse frame -/

/-- `K = PROF.IN_LEN / 2`, the samples of one pulse (rules R172, R285). -/
def samplesPerPulse (s : State) : Nat :=
  s.prof.inLen.toNat / 2

/-- The half the sampler is not filling (rules R285, R286). -/
def drainedHalf (s : State) : Nat :=
  if s.smpIdx.toNat < samplesPerPulse s then 1 else 0

/-- The samples of the drained half: draws while the sampler runs, its elements otherwise (rules R94, R285). -/
def pulseSamples (s : State) : Except Fault (List Half) :=
  if s.smpEn then .ok ((List.range (samplesPerPulse s)).map (Config.racedSample s.draws))
  else readElements s s.inBuf (drainedHalf s * samplesPerPulse s) (samplesPerPulse s)

/-- The Pulse payload of the state's record, request and the given samples (rules R142, R285, R287). -/
def statePulsePayload (s : State) (samples : List Half) : List Byte :=
  pulsePayload s.seq s.ts (parityWord s.parity) s.req.gain s.req.duration s.req.fStart s.req.fStop s.req.fReturn
    samples

/-- The pulse is consumed, whatever `send` returns (rule R285); the samples drawn are drawn. -/
def State.consumePulse (s : State) : State :=
  { s with lastEmitted := s.seq, draws := if s.smpEn then s.draws + 1 else s.draws }

/-- EMIT_PULSE (rule R285): valid in Configured and Running. -/
def execEmitPulse (s : State) : Host.Outcome State Fault Refusal :=
  if s.mode = .idle then .next (s.raise .invalidState)
  else if s.seq = s.lastEmitted then .next (s.raise .noPulse)
  else
    match pulseSamples s with
    | .error f => .fault f
    | .ok d => .next (sendAndRespond s.consumePulse 3 (statePulsePayload s d))

/-! ## The frames

A frame is no command: it has no response. Its meaning is the send unit's work on it (rules R140, R270, R271):
written to `SCR` and delivered on `SINK`, or lost if it does not fit (rule R273). -/

/-- A Heartbeat frame (rules R143, R270). -/
def execFrameHeartbeat (timestamp : Word) (s : State) : Host.Outcome State Fault Refusal :=
  .next (send s 0 (heartbeatPayload timestamp)).2

/-- A Log frame (rules R144, R270). -/
def execFrameLog (category severity : Half) (text : List Byte) (s : State) : Host.Outcome State Fault Refusal :=
  .next (send s 1 (logPayload category severity text)).2

/-- A Reply frame (rules R145, R270). -/
def execFrameReply (status : Half) (text : List Byte) (s : State) : Host.Outcome State Fault Refusal :=
  .next (send s 2 (replyPayload status text)).2

/-- A Pulse frame (rules R142, R270). -/
def execFramePulse (seq timestamp status : Word) (gain duration : Half) (fStart fStop fReturn : F32)
    (samples : List Half) (s : State) : Host.Outcome State Fault Refusal :=
  .next (send s 3 (pulsePayload seq timestamp status gain duration fStart fStop fReturn samples)).2

end Sys2Proof.Machine
end

