-- ==== Sys2Proof/Machine/Ramp.lean ====
section
/-! DEFINITION. The polynomial correction engine (41_ramp_generator.md): the generate unit, the filling of the RampTable
and the GENERATE command. -/

namespace Sys2Proof.Machine

/-! ## Samples and segments -/

/-- Breakpoint `b[k]` (rule R181). -/
def breakpoint (c : Config) (k : Nat) : Rat :=
  c.cal.breakpoints.getD k 0

/-- `M`, the number of segments (rule R181). -/
def segmentCount (c : Config) : Nat :=
  c.cal.cubics.length

/-- The cubic of segment `k` (rule R181). -/
def cubicAt (c : Config) (k : Nat) : Cubic :=
  c.cal.cubics.getD k ⟨0, 0, 0, 0⟩

/-- An endpoint passes iff it is finite and lies in the closed interval (rule R182). -/
def endpointOk (c : Config) (f : F32) : Bool :=
  isFinite32 f && decide (c.fMin ≤ val32 f ∧ val32 f ≤ c.fMax)

/-- The ramp is descending (rule R183). -/
def descending (fs fe : F32) : Bool :=
  decide (val32 fe < val32 fs)

/-- The lower endpoint (rule R183). -/
def rampLow (fs fe : F32) : Rat :=
  if val32 fs ≤ val32 fe then val32 fs else val32 fe

/-- The upper endpoint (rule R183). -/
def rampHigh (fs fe : F32) : Rat :=
  if val32 fs ≤ val32 fe then val32 fe else val32 fs

/-- The frequency of internal sample `i` of `n` (rule R184). -/
def sampleFreq (c : Config) (lo hi : Rat) (n i : Nat) : Rat :=
  match c.stepDivisor with
  | .nMinusOne => if n = 1 then lo else lo + (hi - lo) * (i : Rat) / ((n : Rat) - 1)
  | .n => lo + (hi - lo) * (i : Rat) / (n : Rat)

/-- The walk of the segment cursor under `multi`: on, while the sample exceeds the segment's upper breakpoint and a
segment is left (rule R185). `left` is how many segments lie above the cursor. -/
def advanceMulti (c : Config) (f : Rat) : (left k : Nat) → Nat
  | 0, k => k
  | left + 1, k => if breakpoint c (k + 1) < f then advanceMulti c f left (k + 1) else k

/-- The segment cursor after sample `f` (rule R185). -/
def advanceCursor (c : Config) (f : Rat) (k : Nat) : Nat :=
  match c.segmentAdvance with
  | .multi => advanceMulti c f (segmentCount c - k) k
  | .single => if k < segmentCount c ∧ breakpoint c (k + 1) < f then k + 1 else k

/-- The corrected tuning voltage in segment `k`, in Horner form (rule R186). -/
def tuningVoltage (c : Config) (k : Nat) (f : Rat) : Rat :=
  let q := cubicAt c k
  let x := f - breakpoint c k
  q.c0 + x * (q.c1 + x * (q.c2 + x * q.c3))

/-- The output code of a voltage (rule R187). -/
def outputCode (c : Config) (v : Rat) : Int :=
  roundAway (v / c.vref * (c.maxCode : Rat)) - 1

/-- One sample in exact arithmetic: the cursor after it, and what it comes to (rule R189). -/
def exactSample (c : Config) (lo hi : Rat) (n i k : Nat) : Nat × SampleOutcome :=
  let f := sampleFreq c lo hi n i
  if f < breakpoint c 0 then (k, .below)
  else
    let k' := advanceCursor c f k
    if k' = segmentCount c then (k', .exhausted) else (k', .code (outputCode c (tuningVoltage c k' f)))

/-- One sample in the arithmetic of the configuration (rule R192). -/
def rampSample (c : Config) (lo hi : Rat) (n i k : Nat) : Nat × SampleOutcome :=
  match c.rampArith with
  | .exact => exactSample c lo hi n i k
  | .supplied => (k, Config.suppliedSample c lo hi n i)

/-- A code is legal iff it lies in `[0, MAX_CODE]`; it is never clamped (rule R187). -/
def checkedCode (c : Config) (o : SampleOutcome) : Except RangeSub Half :=
  match o with
  | .below => .error .belowCoverage
  | .exhausted => .error .coverageExhausted
  | .code z => if z < 0 ∨ (c.maxCode : Int) < z then .error .codeRange else .ok (BitVec.ofInt 16 z)

/-- The codes of the `left` samples from `i` on, the cursor at `k` (rules R185 to R189): the first failing sample
gives the sub-cause. -/
def rampWalk (c : Config) (lo hi : Rat) (n : Nat) : (left i k : Nat) → Except RangeSub (List Half)
  | 0, _, _ => .ok []
  | left + 1, i, k =>
    match checkedCode c (rampSample c lo hi n i k).2 with
    | .error e => .error e
    | .ok v =>
      match rampWalk c lo hi n left (i + 1) (rampSample c lo hi n i k).1 with
      | .error e => .error e
      | .ok vs => .ok (v :: vs)

/-- The `n` codes of a ramp in the order they stand in the buffer (rules R183, R188, R189): those of a descending ramp
back to front. DEDUCED (notes/assumptions/27.md): under divisor `N` a descending ramp so starts one step short of its
first endpoint, as R184, R188, R193 and 95_test_vectors.md §3.3 have it, against the words of R191; the spec contradicts
itself here and settles it nowhere. -/
def rampCodes (c : Config) (fs fe : F32) (n : Nat) : Except RangeSub (List Half) :=
  if endpointOk c fs && endpointOk c fe then
    match rampWalk c (rampLow fs fe) (rampHigh fs fe) n n 0 0 with
    | .error e => .error e
    | .ok vs => .ok (if descending fs fe then vs.reverse else vs)
  else .error .endpoint

/-! ## The generate unit and the RampTable -/

/-- How a fill of the output buffer ends: `OK`, or `RANGE_ERROR` with its sub-cause (rules R180, R190). -/
inductive RampResult where
  | done (s : State)
  | rangeError (sub : RangeSub) (s : State)

/-- `generate(fs, fe, n, off)` over an output buffer of `len` elements (rules R180, R188): on any failure no element of
`OUT` changes. -/
def generate (s : State) (len : Nat) (fs fe : F32) (n off : Nat) : Except Fault RampResult :=
  match rampCodes s.cfg fs fe n with
  | .error e => .ok (.rangeError e s)
  | .ok vs =>
    match writeElements s s.outBuf len off vs with
    | .error f => .error f
    | .ok s' => .ok (.done s')

/-- `fill_ramp(req, L)`, with `L` the elements of the buffer (rule R190): one ramp for a sawtooth, two for a triangle, the first with the larger half. -/
def fillRamp (s : State) (q : Request) (len : Nat) : Except Fault RampResult :=
  if isZero32 q.fReturn then generate s len q.fStart q.fStop len 0
  else
    match generate s len q.fStart q.fStop ((len + 1) / 2) 0 with
    | .ok (.done s') => generate s' len q.fStop q.fReturn (len / 2) ((len + 1) / 2)
    | .ok (.rangeError e s') => .ok (.rangeError e s')
    | .error f => .error f

/-- GENERATE (rule R195): valid in Configured only; the region must lie in `OUT_BUF`. -/
def execGenerate (count offset : Half) (fStart fStop : F32) (s : State) : Host.Outcome State Fault Refusal :=
  if s.mode ≠ .configured then .next (s.raise .invalidState)
  else if s.outBuf.len.toNat < offset.toNat + count.toNat then .next (s.raise (.rangeError .region))
  else
    match generate s s.outBuf.len.toNat fStart fStop count.toNat offset.toNat with
    | .error f => .fault f
    | .ok (.rangeError e s') => .next (s'.raise (.rangeError e))
    | .ok (.done s') => .next (s'.respond .ok [])

end Sys2Proof.Machine
end

