-- ==== Sys2Proof/Machine/Resolver.lean ====
section
/-! DEFINITION. The timing-profile validator (40_timing_resolver.md): the resolve unit and the RESOLVE command. -/

namespace Sys2Proof.Machine

/-- The row used for a duration: the first in table order (rule R160). -/
def timingRow (c : Config) (d : Half) : Option TimingRow :=
  c.timingTable.find? fun r => decide (r.durationMs = d)

/-- The output hold time in µs: `duration·1000 / output-buffer-length`, exact or truncated (rules R161, R168). -/
def holdMicros (c : Config) (d : Half) (outLen : Nat) : Rat :=
  match c.holdDiv with
  | .exact => ((d.toNat * 1000 : Nat) : Rat) / (outLen : Rat)
  | .truncate => ((d.toNat * 1000 / outLen : Nat) : Rat)

/-- `HOLD_COUNT = round(BUS_CLOCK_HZ · hold_us · 10^-6)` (rules R161, R168). -/
def holdCount (c : Config) (d : Half) (outLen : Nat) : Nat :=
  match c.resolveArith with
  | .exact => (roundAway ((c.busClockHz : Rat) * holdMicros c d outLen / 1000000)).toNat
  | .supplied => Config.suppliedHoldCount c d outLen

/-- The largest value of a hardware counter, `2^W − 1` (rule R166). -/
def counterMax (c : Config) : Nat :=
  2 ^ c.counterWidth - 1

/-- The profile of a row that passed the checks, its subtractions those of rule R161. -/
def profileOf (c : Config) (outLen tsf hold : Nat) : TimingProfile where
  outLen := outLen
  tsf := tsf
  holdCount := hold
  spc := tsf * hold
  inLen := 2 * (outLen / tsf)
  chDelay := tsf * hold - 1 - (c.settleCount - 1)
  outInterval := hold - 1

/-- One of the four counter values exceeds the counter (rule R166). -/
def countsOverflow (c : Config) (p : TimingProfile) : Bool :=
  decide (counterMax c < p.holdCount ∨ counterMax c < p.spc ∨ counterMax c < p.chDelay
    ∨ counterMax c < p.outInterval)

/-- A buffer's byte size is no multiple of the DMA granule (rule R167). -/
def notGranular (c : Config) (p : TimingProfile) : Bool :=
  decide ((2 * p.outLen) % c.dmaGranule ≠ 0 ∨ (2 * p.inLen) % c.dmaGranule ≠ 0)

/-- The checks of a row whose length and factor are not zero, in the order of rules R162 and R169. -/
def resolveRow (c : Config) (outLen tsf hold : Nat) : Except ConfigSub TimingProfile :=
  if outLen % tsf ≠ 0 then .error .inexactDivision
  else if tsf * hold < 1 ∨ tsf * hold < c.settleCount then .error .countRange
  else if hold < 1 then .error .countRange
  else if countsOverflow c (profileOf c outLen tsf hold) then .error .countRange
  else if notGranular c (profileOf c outLen tsf hold) then .error .granularity
  else .ok (profileOf c outLen tsf hold)

/-- `resolve(d)` (rules R162 to R169): a pure function of the parameters and the duration. -/
def resolve (c : Config) (d : Half) : Except ConfigSub TimingProfile :=
  match timingRow c d with
  | none => .error .unsupportedDuration
  | some row =>
    if row.outLen = 0 then .error .unsupportedDuration
    else if row.tsf = 0 then .error .zeroScale
    else resolveRow c row.outLen row.tsf (holdCount c d row.outLen)

/-- The seven result words of RESOLVE, in the order of rule R121. -/
def profileWords (p : TimingProfile) : List Word :=
  [heldLength p.outLen, heldLength p.tsf, heldIn32 p.spc, heldIn32 p.chDelay, heldIn32 p.holdCount,
    heldIn32 p.outInterval, heldLength p.inLen]

/-- RESOLVE (rule R170): valid in every state, and it writes no state. -/
def execResolve (duration : Half) (s : State) : Host.Outcome State Fault Refusal :=
  match resolve s.cfg duration with
  | .error sub => .next (s.raise (.configError sub))
  | .ok p => .next (s.respond .ok (profileWords p))

end Sys2Proof.Machine
end

