-- ==== Sys2Proof/Machine/Synchronizer.lean ====
section
/-! DEFINITION. The state-machine synchronizer's commands (43_synchronizer.md): CONFIGURE, START, STOP, SET_TX_ENABLE and
READ_STATUS. -/

namespace Sys2Proof.Machine

/-- The rollback of a failed CONFIGURE and its response (rules R222, R312). -/
def configureFails (s : State) (st : Status) : Host.Outcome State Fault Refusal :=
  .next (s.enterIdle.raise st)

/-- CONFIGURE from the ramp step on, the buffers allocated (rules R221, R225 to R227). -/
def configureRamp (q : Request) (p : TimingProfile) (s : State) : Host.Outcome State Fault Refusal :=
  match fillRamp s q p.outLen with
  | .error f => .fault f
  | .ok (.rangeError e s') => configureFails s' (.rangeError e)
  | .ok (.done s') => .next (((s'.programDescriptors p).bind q p).respond .ok [])

/-- CONFIGURE from the allocation on (rules R221, R224). -/
def configureAllocate (q : Request) (p : TimingProfile) (s : State) : Host.Outcome State Fault Refusal :=
  match allocate s p with
  | .error s' => configureFails s' .allocationError
  | .ok s' => configureRamp q p s'

/-- CONFIGURE after its step 1: the calibration refusal, then the resolver (rules R221, R223, R306). -/
def configureChecked (q : Request) (s : State) : Host.Outcome State Fault Refusal :=
  if s.calFail then configureFails s .hardwareError
  else
    match resolve s.cfg q.duration with
    | .error sub => configureFails s (.configError sub)
    | .ok p => configureAllocate q p s

/-- CONFIGURE (rule R221): valid in every state; fail-fast (rules R223, R311). -/
def execConfigure (duration gain : Half) (fStart fStop fReturn : F32) (s : State) :
    Host.Outcome State Fault Refusal :=
  configureChecked ⟨true, duration, gain, fStart, fStop, fReturn⟩ s.configureEntry

/-- START (rule R230): valid in Configured only. -/
def execStart (s : State) : Host.Outcome State Fault Refusal :=
  if s.mode ≠ .configured then .next (s.raise .invalidState) else .next (s.startBody.respond .ok [])

/-- STOP (rule R235): valid in every state, idempotent (rule R236). -/
def execStop (s : State) : Host.Outcome State Fault Refusal :=
  .next (s.stopBody.respond .ok [])

/-- SET_TX_ENABLE (rule R240): valid in every state. -/
def execSetTxEnable (enable : Bool) (s : State) : Host.Outcome State Fault Refusal :=
  .next (State.respond { s with txEn := enable } .ok [])

/-- READ_STATUS (rule R242): valid in every state; it writes no state. -/
def execReadStatus (s : State) : Host.Outcome State Fault Refusal :=
  .next (s.respond .ok [s.statusWord])

end Sys2Proof.Machine
end

