-- ==== Sys2Proof/Machine/Dispatch.lean ====
section
/-! DEFINITION. The meaning of every instruction, one arm for each constructor. -/

namespace Sys2Proof.Machine

def exec (i : Instr) (s : State) : Host.Outcome State Fault Refusal :=
  match i with
  | .configure duration gain fStart fStop fReturn => Sys2Proof.Machine.execConfigure duration gain fStart fStop fReturn s
  | .start => Sys2Proof.Machine.execStart s
  | .stop => Sys2Proof.Machine.execStop s
  | .setTxEnable enable => Sys2Proof.Machine.execSetTxEnable enable s
  | .readStatus => Sys2Proof.Machine.execReadStatus s
  | .resolve duration => Sys2Proof.Machine.execResolve duration s
  | .generate count offset fStart fStop => Sys2Proof.Machine.execGenerate count offset fStart fStop s
  | .emitPulse => Sys2Proof.Machine.execEmitPulse s
  | .sendHeartbeat => Sys2Proof.Machine.execSendHeartbeat s
  | .sendLog category severity text => Sys2Proof.Machine.execSendLog category severity text s
  | .sendReply status text => Sys2Proof.Machine.execSendReply status text s
  | .frameHeartbeat timestamp => Sys2Proof.Machine.execFrameHeartbeat timestamp s
  | .frameLog category severity text => Sys2Proof.Machine.execFrameLog category severity text s
  | .frameReply status text => Sys2Proof.Machine.execFrameReply status text s
  | .framePulse seq timestamp status gain duration fStart fStop fReturn samples => Sys2Proof.Machine.execFramePulse seq timestamp status gain duration fStart fStop fReturn samples s

end Sys2Proof.Machine
end

