-- ==== Sys2Proof/Machine/Step.lean ====
section
/-! DEFINITION. One step of the block: the agent whose turn it is takes its atomic step (10_state.md rule R30, 20_memory.md
rule R92, 60_exceptions.md rule R321), and where the host's words are placed. -/

namespace Sys2Proof.Machine

/-- What was fetched is executed: one whole command, or one frame, is one atomic step (rule R93). -/
def runFetched (s : State) : Fetched → Host.Outcome State Fault Refusal
  | .waiting => .next s
  | .illegal s' => .next s'
  | .instr i s' => exec i s'
  | .malformed why => .refused (.malformedFrame why)

/-- The step of the agent whose turn it is. -/
def takeTurn (t : Turn) (s : State) : Host.Outcome State Fault Refusal :=
  match t with
  | .deliver w => deliverTurn s w
  | .command => runFetched s (fetchCommand s)
  | .tick adc => tickTurn s adc
  | .handler ts => handlerTurn s ts
  | .framer => runFetched s (fetchFrame s)
  | .reset calFails => resetTurn s calFails

/-- One step. The schedule says which agent moves; past its end the choice is a free value (rule R321(b)). Parameters
that rule R8 does not admit are refused. -/
def step (s : State) : Host.Outcome State Fault Refusal :=
  if configOk s.cfg then
    match s.turns with
    | t :: rest => takeTurn t { s with turns := rest }
    | [] => takeTurn (Config.freeTurn s.draws) s.drawn
  else .refused .illFormedConfiguration

/-- The state with a word of spec/opcode_table.json where the next step fetches it (host interface). -/
def State.withFetchWord (s : State) (nbits w : Nat) : State :=
  if tableIsFrame nbits w then placeFrame s w else placeCommand s w

end Sys2Proof.Machine
end

