-- ==== Sys2Proof/Machine/Assembler.lean ====
section
/-! DEFINITION. The assembler of command streams and its pseudo-instructions (30_encoding.md rules R150, R151): from
text to commands, and from commands to the words of `CMD`. No step of the block runs it. What R150 leaves open of the
syntax is in assumption log 26. -/

namespace Sys2Proof.Machine

/-! ## Pseudo-instructions -/

/-- The commands a pseudo-instruction stands for (rule R151). -/
def expandPseudo : Pseudo → Except AsmReject (List Instr)
  | .sawtooth duration gain fStart fStop => .ok [.configure duration gain fStart fStop 0]
  | .triangle duration gain fStart fStop fReturn =>
    if isZero32 fReturn then .error .zeroReturn else .ok [.configure duration gain fStart fStop fReturn]
  | .txOn => .ok [.setTxEnable true]
  | .txOff => .ok [.setTxEnable false]
  | .reconfigure duration gain fStart fStop fReturn =>
    .ok [.configure duration gain fStart fStop fReturn, .start]
  | .halt => .ok [.stop]

/-! ## Frequencies -/

/-- `n / d` to the nearest integer, ties to the even one. -/
def divNearestEven (n d : Nat) : Nat :=
  if 2 * (n % d) < d ∨ (2 * (n % d) = d ∧ n / d % 2 = 0) then n / d else n / d + 1

/-- The binade of the rational `n / d`: how far its lowest significand bit lies above 2^-149. -/
def binade32 (n d : Nat) : Nat :=
  (n * 2 ^ 149 / d).log2 - 23

/-- The binary32 pattern nearest to the rational `n / d`, ties to even; infinity past the largest finite one (rule R150,
assumption log 26). -/
def binary32OfRatio (n d : Nat) : F32 :=
  let k := binade32 n d
  BitVec.ofNat 32 (min (divNearestEven (n * 2 ^ 149) (d * 2 ^ k) + k * 2 ^ 23) (255 * 2 ^ 23))

/-- The pattern with its sign. -/
def signed32 (negative : Bool) (f : F32) : F32 :=
  if negative then 0x80000000#32 ||| f else f

/-! ## Literals -/

/-- The value of a decimal digit. -/
def decimalDigit (c : Char) : Option Nat :=
  if 48 ≤ c.toNat ∧ c.toNat ≤ 57 then some (c.toNat - 48) else none

/-- The value of a hexadecimal digit, of either case. -/
def hexDigit (c : Char) : Option Nat :=
  if 97 ≤ c.toNat ∧ c.toNat ≤ 102 then some (c.toNat - 87)
  else if 65 ≤ c.toNat ∧ c.toNat ≤ 70 then some (c.toNat - 55)
  else decimalDigit c

/-- The number the digits write in a base, from what stands before them; no number where one of them is no digit. -/
def digitsFrom (digit : Char → Option Nat) (base acc : Nat) : List Char → Option Nat
  | [] => some acc
  | c :: cs =>
    match digit c with
    | some v => digitsFrom digit base (acc * base + v) cs
    | none => none

/-- The number that at least one digit writes. -/
def numberOf (digit : Char → Option Nat) (base : Nat) (cs : List Char) : Option Nat :=
  if cs.isEmpty then none else digitsFrom digit base 0 cs

/-- An integer literal: decimal, or `0x` hexadecimal (rule R150). -/
def integerLiteral : List Char → Option Nat
  | '0' :: 'x' :: cs => numberOf hexDigit 16 cs
  | cs => numberOf decimalDigit 10 cs

/-- A u16 operand; the assembler refuses one that does not fit (rule R150). -/
def halfOperand (cs : List Char) : Except AsmReject Half :=
  match integerLiteral cs with
  | none => .error .badInteger
  | some n => if n < 65536 then .ok (BitVec.ofNat 16 n) else .error .doesNotFit

/-- The operand of SET_TX_ENABLE: 0 or 1 (rule R150). -/
def flagOperand (cs : List Char) : Except AsmReject Bool :=
  match integerLiteral cs with
  | none => .error .badInteger
  | some 0 => .ok false
  | some 1 => .ok true
  | some (_ + 2) => .error .doesNotFit

/-- The sign before a literal, and what follows it. -/
def signOf : List Char → Bool × List Char
  | '-' :: cs => (true, cs)
  | '+' :: cs => (false, cs)
  | cs => (false, cs)

/-- The exponent after `e`: an optional sign and digits; none stands for 0. -/
def exponentOf : List Char → Option (Bool × Nat)
  | [] => some (false, 0)
  | _ :: cs => (numberOf decimalDigit 10 (signOf cs).2).map fun n => ((signOf cs).1, n)

/-- The mark of an exponent. -/
def isExponentMark (c : Char) : Bool :=
  c == 'e' || c == 'E'

/-- A decimal floating-point literal `[sign] digits [. digits] [e [sign] digits]`, rounded to binary32 (rule R150). -/
def frequencyOperand (cs : List Char) : Except AsmReject F32 :=
  let body := (signOf cs).2
  let mantissa := body.takeWhile fun c => !isExponentMark c
  let whole := mantissa.takeWhile fun c => c != '.'
  let fraction := (mantissa.dropWhile fun c => c != '.').drop 1
  let pointAlone := mantissa.contains '.' && fraction.isEmpty
  match numberOf decimalDigit 10 whole, digitsFrom decimalDigit 10 0 fraction,
      exponentOf (body.dropWhile fun c => !isExponentMark c) with
  | some w, some f, some (negative, e) =>
    if pointAlone then .error .badFrequency
    else
      let n := w * 10 ^ fraction.length + f
      let d := 10 ^ fraction.length
      .ok (signed32 (signOf cs).1 (if negative then binary32OfRatio n (d * 10 ^ e) else binary32OfRatio (n * 10 ^ e) d))
  | _, _, _ => .error .badFrequency

/-- The bytes between the quotes: an escape `\xNN` gives one byte, any other printable ASCII character its code; the
closing quote stands last. -/
def textBody : List Char → Option (List Byte)
  | ['"'] => some []
  | '\\' :: 'x' :: a :: b :: cs =>
    match hexDigit a, hexDigit b, textBody cs with
    | some u, some v, some t => some (BitVec.ofNat 8 (16 * u + v) :: t)
    | _, _, _ => none
  | c :: cs =>
    if c ≠ '"' ∧ c ≠ '\\' ∧ 32 ≤ c.toNat ∧ c.toNat ≤ 126 then (textBody cs).map (BitVec.ofNat 8 c.toNat :: ·) else none
  | [] => none

/-- A text operand: a double-quoted byte string of at most 65535 bytes (rule R150). -/
def textOperand : List Char → Except AsmReject (List Byte)
  | '"' :: cs =>
    match textBody cs with
    | some t => if textFits t then .ok t else .error .doesNotFit
    | none => .error .badText
  | _ => .error .badText

/-! ## Lines -/

/-- A space, a tab or a carriage return. -/
def isBlank (c : Char) : Bool :=
  c == ' ' || c == '\t' || c == '\r'

/-- A token without the blanks around it. -/
def trimBlanks (cs : List Char) : List Char :=
  ((cs.dropWhile isBlank).reverse.dropWhile isBlank).reverse

/-- The line up to its comment; a `;` inside quotes starts none (rule R150). -/
def dropComment (quoted : Bool) : List Char → List Char
  | [] => []
  | c :: cs =>
    if c = ';' ∧ quoted = false then []
    else c :: dropComment (if c = '"' then !quoted else quoted) cs

/-- The list with `c` before its first element. -/
def consFirst (c : Char) : List (List Char) → List (List Char)
  | [] => [[c]]
  | t :: ts => (c :: t) :: ts

/-- The parts between commas; a comma inside quotes divides nothing. -/
def splitCommas (quoted : Bool) : List Char → List (List Char)
  | [] => [[]]
  | c :: cs =>
    if c = ',' ∧ quoted = false then [] :: splitCommas quoted cs
    else consFirst c (splitCommas (if c = '"' then !quoted else quoted) cs)

/-- The operands of a line, trimmed; none where nothing stands after the mnemonic. -/
def operandsOf (cs : List Char) : List (List Char) :=
  if (trimBlanks cs).isEmpty then [] else (splitCommas false cs).map trimBlanks

/-- The lines of a text. -/
def linesOf : List Char → List (List Char)
  | [] => [[]]
  | c :: cs => if c = '\n' then [] :: linesOf cs else consFirst c (linesOf cs)

/-! ## Commands -/

/-- The five operands of a CONFIGURE, a TRIANGLE and a RECONFIGURE. -/
def rampOperands (ops : List (List Char)) : Except AsmReject (Half × Half × F32 × F32 × F32) :=
  match ops with
  | [d, g, f0, f1, fr] => do
    return (← halfOperand d, ← halfOperand g, ← frequencyOperand f0, ← frequencyOperand f1, ← frequencyOperand fr)
  | _ => .error .operandCount

/-- A line of a mnemonic that takes no operand. -/
def noOperands (ops : List (List Char)) (is : Except AsmReject (List Instr)) : Except AsmReject (List Instr) :=
  if ops.isEmpty then is else .error .operandCount

/-- What one mnemonic and its operands stand for, in the operand order of rule R150 and, for the pseudo-instructions, of
rule R151. -/
def assembleCommand (m : List Char) (ops : List (List Char)) : Except AsmReject (List Instr) :=
  if m = "CONFIGURE".toList then do
    let (d, g, f0, f1, fr) ← rampOperands ops
    return [.configure d g f0 f1 fr]
  else if m = "START".toList then noOperands ops (.ok [.start])
  else if m = "STOP".toList then noOperands ops (.ok [.stop])
  else if m = "SET_TX_ENABLE".toList then
    match ops with
    | [v] => do return [.setTxEnable (← flagOperand v)]
    | _ => .error .operandCount
  else if m = "READ_STATUS".toList then noOperands ops (.ok [.readStatus])
  else if m = "RESOLVE".toList then
    match ops with
    | [d] => do return [.resolve (← halfOperand d)]
    | _ => .error .operandCount
  else if m = "GENERATE".toList then
    match ops with
    | [n, o, f0, f1] => do
      return [.generate (← halfOperand n) (← halfOperand o) (← frequencyOperand f0) (← frequencyOperand f1)]
    | _ => .error .operandCount
  else if m = "EMIT_PULSE".toList then noOperands ops (.ok [.emitPulse])
  else if m = "SEND_HEARTBEAT".toList then noOperands ops (.ok [.sendHeartbeat])
  else if m = "SEND_LOG".toList then
    match ops with
    | [c, v, t] => do return [.sendLog (← halfOperand c) (← halfOperand v) (← textOperand t)]
    | _ => .error .operandCount
  else if m = "SEND_REPLY".toList then
    match ops with
    | [v, t] => do return [.sendReply (← halfOperand v) (← textOperand t)]
    | _ => .error .operandCount
  else if m = "SAWTOOTH".toList then
    match ops with
    | [d, g, f0, f1] => do
      expandPseudo (.sawtooth (← halfOperand d) (← halfOperand g) (← frequencyOperand f0) (← frequencyOperand f1))
    | _ => .error .operandCount
  else if m = "TRIANGLE".toList then do
    let (d, g, f0, f1, fr) ← rampOperands ops
    expandPseudo (.triangle d g f0 f1 fr)
  else if m = "RECONFIGURE".toList then do
    let (d, g, f0, f1, fr) ← rampOperands ops
    expandPseudo (.reconfigure d g f0 f1 fr)
  else if m = "TX_ON".toList then noOperands ops (expandPseudo .txOn)
  else if m = "TX_OFF".toList then noOperands ops (expandPseudo .txOff)
  else if m = "HALT".toList then noOperands ops (expandPseudo .halt)
  else .error .unknownMnemonic

/-- One line: a comment alone or blanks stand for nothing (rule R150). -/
def assembleLine (line : List Char) : Except AsmReject (List Instr) :=
  let body := trimBlanks (dropComment false line)
  if body.isEmpty then .ok []
  else assembleCommand (body.takeWhile fun c => !isBlank c) (operandsOf (body.dropWhile fun c => !isBlank c))

/-- The commands of the lines, in order; the first refused line refuses the whole. -/
def assembleLines : List (List Char) → Except AsmReject (List Instr)
  | [] => .ok []
  | l :: ls => do return (← assembleLine l) ++ (← assembleLines ls)

/-- A command stream from its text (rule R150). -/
def assemble (text : List Char) : Except AsmReject (List Instr) :=
  assembleLines (linesOf text)

/-- The words of a command stream, one command after the other with no padding (rules R110, R150). -/
def commandWords : List Instr → List Word
  | [] => []
  | i :: is => (encodeCommand i).getD [] ++ commandWords is

end Sys2Proof.Machine
end

