-- ==== Sys2Proof/Safety.lean ====
section
/-! DEFINITION. What counts as a safe run: no model-internal fault (60_exceptions.md rule R313), and the invariants of the
state that the rules of 10_state.md, 41_ramp_generator.md, 42_buffer_manager.md and 43_synchronizer.md give. All are
plain decidable conditions on a state. -/

namespace Sys2Proof.Machine

/-- The step does not end in a model-internal fault (rules R81, R86, R88, R313). -/
def NoFault (o : Host.Outcome State Fault Refusal) : Prop :=
  ∀ f, o ≠ .fault f

/-- `TM_EN = OD_EN = OD_OUT_EN = SMP_EN = (STATE = Running)` (rule R36). -/
abbrev State.EnablesAgree (s : State) : Prop :=
  s.tmEn = decide (s.mode = .running) ∧ s.odEn = decide (s.mode = .running)
    ∧ s.odOutEn = decide (s.mode = .running) ∧ s.smpEn = decide (s.mode = .running)

/-- Both memories are in canonical form and list no byte outside their space (rules R80, R82). -/
abbrev State.MemoriesOk (s : State) : Prop :=
  Memory.wf s.buf ∧ Memory.wf s.scr
    ∧ (∀ c ∈ s.buf, c.1 < s.cfg.bufCapacity) ∧ (∀ c ∈ s.scr, c.1 < s.cfg.scratchCapacity)

/-- Nothing is bound: case (b) of rule R228. -/
abbrev State.Unbound (s : State) : Prop :=
  s.outBuf = .empty ∧ s.inBuf = .empty ∧ s.req = .none ∧ s.prof = .none
    ∧ s.tmDesc = .zero ∧ s.odDesc = .zero ∧ s.smpDesc = .zero

/-- "The lengths fit 32 bits whenever the buffers fit `BUF_CAPACITY`" (rule R38): every row of the timing table whose
buffers fit needs at most 2^32 bytes for them, so no 32-bit field shows a free value (notes/assumptions/8.md). With at most
2^32 bytes of buffer memory it always holds. -/
def lengthsFit (c : Config) : Bool :=
  c.timingTable.all fun r =>
    decide (2 * r.outLen + 2 * (2 * (r.outLen / r.tsf)) ≤ c.bufCapacity →
      2 * r.outLen + 2 * (2 * (r.outLen / r.tsf)) ≤ 4294967296)

/-- The bound buffers can be accessed: neither is empty, both bases are even, and each lies inside the memory (rules R88,
R171, R210, R211). -/
abbrev State.GeometryOk (s : State) : Prop :=
  1 ≤ s.prof.outLen.toNat ∧ 1 ≤ s.prof.tsf.toNat ∧ 2 ≤ s.prof.inLen.toNat ∧ s.prof.inLen.toNat % 2 = 0
    ∧ s.outBuf.base = 0 ∧ s.outBuf.len = s.prof.outLen ∧ 2 * s.prof.outLen.toNat ≤ s.cfg.bufCapacity
    ∧ s.inBuf.base.toNat % 2 = 0 ∧ s.inBuf.len = s.prof.inLen
    ∧ s.inBuf.base.toNat + 2 * s.prof.inLen.toNat ≤ s.cfg.bufCapacity

/-- The 32-bit fields hold the lengths of a profile that the resolver accepts (rule R171) and the placement that the
buffer manager gives it (rule R211). -/
abbrev State.LengthsExact (s : State) : Prop :=
  s.prof.outLen.toNat % s.prof.tsf.toNat = 0
    ∧ s.prof.inLen.toNat = 2 * (s.prof.outLen.toNat / s.prof.tsf.toNat)
    ∧ s.inBuf.base.toNat = 2 * s.prof.outLen.toNat

/-- The descriptors are those that rule R226 programs from the bound profile and the buffers. -/
abbrev State.DescriptorsOk (s : State) : Prop :=
  s.tmDesc = ⟨s.prof.spc, s.prof.chDelay, s.prof.outInterval, s.prof.tsf⟩
    ∧ s.odDesc = ⟨s.outBuf.base, 2, s.prof.outLen, .circular⟩
    ∧ s.smpDesc = ⟨s.inBuf.base, 2, s.prof.inLen, .pingPong⟩

/-- Every code of the RampTable lies in `[0, MAX_CODE]` (rule R187, decision D15). -/
abbrev State.RampOk (s : State) : Prop :=
  ∀ i < s.prof.outLen.toNat, (elementAt s s.outBuf i).toNat ≤ s.cfg.maxCode

/-- A request, a profile, buffers and a ramp are bound: case (a) of rule R228. A block whose calibration failed never
gets here (rule R306). The exact lengths, and that no sample lands in the RampTable, ask for lengths that 32 bits hold
(rule R38). -/
abbrev State.Bound (s : State) : Prop :=
  s.calFail = false ∧ s.req.valid = true ∧ s.prof.valid = true ∧ s.GeometryOk ∧ s.DescriptorsOk
    ∧ (lengthsFit s.cfg = true → s.LengthsExact ∧ s.RampOk)

/-- The cursors stay inside their buffers and the phase below `TSF` (rules R49, R250). -/
abbrev State.CursorsOk (s : State) : Prop :=
  s.odIdx.toNat < s.prof.outLen.toNat ∧ s.smpIdx.toNat < s.prof.inLen.toNat ∧ s.tmPhase.toNat < s.prof.tsf.toNat

/-- The invariant of the block: it holds after reset, and every step keeps it. -/
abbrev State.Inv (s : State) : Prop :=
  configOk s.cfg = true ∧ s.EnablesAgree ∧ s.MemoriesOk
    ∧ (s.mode = .idle → s.Unbound) ∧ (s.mode ≠ .idle → s.Bound) ∧ (s.mode = .running → s.CursorsOk)

/-- The output driver and the sampler stay in step: the driver stands where the samples taken and the phase put it in
its traversal of the RampTable, so one half of `IN_BUF` is one traversal (rules R172, R251). -/
abbrev State.CursorsInStep (s : State) : Prop :=
  s.mode = .running →
    s.odIdx.toNat = (s.smpIdx.toNat * s.prof.tsf.toNat + s.tmPhase.toNat) % s.prof.outLen.toNat

/-- How many allocations of a buffer the history records (rule R65). -/
def allocCount (b : BufId) : List Event → Nat
  | [] => 0
  | .alloc b' _ _ :: rest => (if b' = b then 1 else 0) + allocCount b rest
  | _ :: rest => allocCount b rest

/-- How many releases of a buffer the history records (rule R65). -/
def freeCount (b : BufId) : List Event → Nat
  | [] => 0
  | .free b' :: rest => (if b' = b then 1 else 0) + freeCount b rest
  | _ :: rest => freeCount b rest

/-- The frames the history records, in order (rule R65). -/
def framesOf : List Event → List (List Byte)
  | [] => []
  | .frame F :: rest => F :: framesOf rest
  | _ :: rest => framesOf rest

/-- How many handler runs the history records (rule R65). -/
def handlerCount : List Event → Nat
  | [] => 0
  | .handler _ _ _ :: rest => 1 + handlerCount rest
  | _ :: rest => handlerCount rest

/-- A buffer that holds elements is one live allocation, an empty one is none (rules R212, R214). -/
abbrev State.AllocBalanced (s : State) : Prop :=
  allocCount .out s.history = freeCount .out s.history + (if s.outBuf.len = 0 then 0 else 1)
    ∧ allocCount .inp s.history = freeCount .inp s.history + (if s.inBuf.len = 0 then 0 else 1)

/-- The sequence number counts the handler runs since reset, modulo 2^32 (rules R42, R247). -/
abbrev State.SeqCounts (s : State) : Prop :=
  s.seq = BitVec.ofNat 32 (handlerCount s.history)

/-! ## The terms that statements use -/

/-- The agent that moves next: the schedule's first, or the free choice (rule R321). -/
def State.nextTurn (s : State) : Turn :=
  match s.turns with
  | t :: _ => t
  | [] => Config.freeTurn s.draws

/-- `F` stands at the start of `SCR` in `t`, and every byte past it reads as in `s` (rule R270). -/
def ScratchHolds (s t : State) (F : List Byte) : Prop :=
  (∀ k < F.length, t.byteAt .scr k = F.getD k 0) ∧ ∀ a, F.length ≤ a → t.byteAt .scr a = s.byteAt .scr a

/-- Handler runs one after the other, each with the time stamp it captures (rule R247). -/
def handlerRuns : List Word → State → State
  | [], s => s
  | ts :: rest, s => handlerRuns rest (s.takeInterrupt ts)

/-- The block after a failed CONFIGURE from `s` whose records are `evs` and whose response is the header word `r0`:
stopped, the pending pulse discarded, idle, nothing bound (rules R221, R222, R312). -/
def State.rolledBack (s : State) (evs : List Event) (r0 : Word) : State :=
  { s with
    mode := .idle
    tmEn := if s.mode = .running then false else s.tmEn
    odEn := if s.mode = .running then false else s.odEn
    odOutEn := if s.mode = .running then false else s.odOutEn
    smpEn := if s.mode = .running then false else s.smpEn
    lastEmitted := s.seq
    req := ⟨false, 0, 0, 0, 0, 0⟩
    prof := ⟨false, 0, 0, 0, 0, 0, 0, 0⟩
    tmDesc := ⟨0, 0, 0, 0⟩
    odDesc := ⟨0, 0, 0, .none⟩
    smpDesc := ⟨0, 0, 0, .none⟩
    outBuf := if s.outBuf.len = 0 then s.outBuf else ⟨0, 0⟩
    inBuf := if s.inBuf.len = 0 then s.inBuf else ⟨0, 0⟩
    history := s.history ++ evs
    resp := s.resp ++ [[r0]] }

/-- The codes of the whole RampTable of a request: one ramp, or the concatenation of two (rule R190). -/
def rampTable (c : Config) (q : Request) (len : Nat) : Except RangeSub (List Half) :=
  if isZero32 q.fReturn then rampCodes c q.fStart q.fStop len
  else
    match rampCodes c q.fStart q.fStop ((len + 1) / 2) with
    | .error e => .error e
    | .ok up =>
      match rampCodes c q.fStop q.fReturn (len / 2) with
      | .error e => .error e
      | .ok down => .ok (up ++ down)

/-- The lowest segment whose upper breakpoint the sample does not exceed, found afresh (rule R185). -/
def lowestSegment (c : Config) (f : Rat) : Option Nat :=
  (List.range (segmentCount c)).find? fun k => decide (f ≤ breakpoint c (k + 1))

/-- Sample `i` evaluated with a fresh search for its segment, with no cursor (rules R184 to R187). -/
def freshSample (c : Config) (lo hi : Rat) (n i : Nat) : SampleOutcome :=
  let f := sampleFreq c lo hi n i
  if f < breakpoint c 0 then .below
  else
    match lowestSegment c f with
    | none => .exhausted
    | some k => .code (outputCode c (tuningVoltage c k f))

/-- The instructions that deliver a frame: the four sending commands (rule R274) and the frames themselves. -/
def sendsFrame : Instr → Bool
  | .emitPulse => true
  | .sendHeartbeat => true
  | .sendLog _ _ _ => true
  | .sendReply _ _ => true
  | .frameHeartbeat _ => true
  | .frameLog _ _ _ => true
  | .frameReply _ _ => true
  | .framePulse _ _ _ _ _ _ _ _ _ => true
  | .configure _ _ _ _ _ => false
  | .start => false
  | .stop => false
  | .setTxEnable _ => false
  | .readStatus => false
  | .resolve _ => false
  | .generate _ _ _ _ => false

/-- The instruction is CONFIGURE. -/
def isConfigure : Instr → Bool
  | .configure _ _ _ _ _ => true
  | .start => false
  | .stop => false
  | .setTxEnable _ => false
  | .readStatus => false
  | .resolve _ => false
  | .generate _ _ _ _ => false
  | .emitPulse => false
  | .sendHeartbeat => false
  | .sendLog _ _ _ => false
  | .sendReply _ _ => false
  | .frameHeartbeat _ => false
  | .frameLog _ _ _ => false
  | .frameReply _ _ => false
  | .framePulse _ _ _ _ _ _ _ _ _ => false

end Sys2Proof.Machine
end

