-- ==== Sys2Proof/Certificates/Slice0/Obligations.lean ====
section
/-! DEFINITION. The statements for the provers. Each formalises rules of the spec over the machine; a docstring names the
rules, and says where a clause is the model's own choice. -/

open Sys2Proof Sys2Proof.Machine

/-! ## Encoding -/

/-- R110 to R115: decoding the words of a well-formed command, whatever follows them on `CMD`, gives the command back
with every operand, and leaves what follows. -/
def Obligations.CommandDecodeInvertsEncode : Prop :=
  ∀ (i : Instr) (ws rest : List Word), wellFormed i = true → encodeCommand i = some ws →
    decodeCommand (ws ++ rest) = .instr i rest

/-- R140 to R146, R288: decoding the bytes of a well-formed frame, under any magic, gives every field back. -/
def Obligations.FrameDecodeInvertsEncode : Prop :=
  ∀ (magic : Word) (i : Instr) (bs : List Byte), wellFormed i = true → encodeFrame magic i = some bs →
    decodeFrame magic bs = .ok i

/-- R146, the other direction: a byte string that decodes is the encoding of what it decodes to, and of nothing else. -/
def Obligations.FrameEncodeInvertsDecode : Prop :=
  ∀ (magic : Word) (i : Instr) (bs : List Byte), decodeFrame magic bs = .ok i →
    wellFormed i = true ∧ encodeFrame magic i = some bs

/-- R110, R115, R116, R117: the decoder waits until the command's `L(w0)` words are there, and then consumes exactly
those, legal command or not. -/
def Obligations.DecoderConsumesCommandLength : Prop :=
  ∀ (w0 : Word) (ws : List Word),
    if (w0 :: ws).length < commandLength w0 then decodeCommand (w0 :: ws) = .waiting
    else (∃ i, decodeCommand (w0 :: ws) = .instr i ((w0 :: ws).drop (commandLength w0)))
      ∨ (∃ why, decodeCommand (w0 :: ws) = .illegal why ((w0 :: ws).drop (commandLength w0)))

/-- R116, R117, R302: which whole commands are illegal, and with which sub-cause. `op` is the opcode, `imm` the immediate,
`w1` the first operand word. That an unassigned opcode gets UNKNOWN_OPCODE whatever its RSV field is, and so RESERVED_BITS
only an opcode from 1 to 11, is the model's choice between R117 and R302 and the order of R116 (assumption log 10). -/
def Obligations.ReservedEncodingsAreIllegal : Prop :=
  ∀ (w0 : Word) (ws : List Word), commandReady (w0 :: ws) = true →
    let op := (opField w0).toNat
    let imm := (highHalf w0).toNat
    let w1 := ws.getD 0 0
    let rest := (w0 :: ws).drop (commandLength w0)
    (decodeCommand (w0 :: ws) = .illegal .unknownOpcode rest ↔ op = 0 ∨ 12 ≤ op)
      ∧ (decodeCommand (w0 :: ws) = .illegal .reservedBits rest ↔
          1 ≤ op ∧ op ≤ 11 ∧ (rsvField w0 ≠ 0
            ∨ (op = 1 ∨ op = 7 ∨ op = 11) ∧ highHalf w1 ≠ 0
            ∨ (op = 2 ∨ op = 3 ∨ op = 5 ∨ op = 8 ∨ op = 9) ∧ imm ≠ 0))
      ∧ (decodeCommand (w0 :: ws) = .illegal .badImmediate rest ↔ op = 4 ∧ rsvField w0 = 0 ∧ 2 ≤ imm)

/-- Four commands of 95_test_vectors.md §3.1, read off rules R111 to R114, decode to what they stand for, and so do a
Heartbeat, a Log and a Reply frame of §3.7 under TC1's magic. -/
def Obligations.WordsOfTheSpecDecode : Prop :=
  decodeCommand [0x00000002#32] = .instr .start []
    ∧ decodeCommand [0x00010001#32, 0x00000007#32, 0x42C80000#32, 0x43480000#32, 0x00000000#32]
      = .instr (.configure 1 7 0x42C80000#32 0x43480000#32 0) []
    ∧ decodeCommand [0x00050007#32, 0x00000000#32, 0x42C80000#32, 0x43480000#32]
      = .instr (.generate 5 0 0x42C80000#32 0x43480000#32) []
    ∧ decodeCommand [0x0002000A#32, 0x00010002#32, 0x00006968#32] = .instr (.sendLog 2 1 [0x68#8, 0x69#8]) []
    ∧ decodeFrame 0x52414452#32 [0x52, 0x44, 0x41, 0x52, 0x04, 0, 0, 0, 0x78, 0x56, 0x34, 0x12]
      = .ok (.frameHeartbeat 0x12345678#32)
    ∧ decodeFrame 0x52414452#32 [0x52, 0x44, 0x41, 0x52, 0x06, 0, 0x01, 0, 0x02, 0, 0x01, 0, 0x68, 0x69]
      = .ok (.frameLog 2 1 [0x68#8, 0x69#8])
    ∧ decodeFrame 0x52414452#32 [0x52, 0x44, 0x41, 0x52, 0x04, 0, 0x02, 0, 0, 0, 0x4f, 0x4b]
      = .ok (.frameReply 0 [0x4f#8, 0x4b#8])

/-- R150: the assembler converts the rational `n / d` to the binary32 nearest to it, and of two equally near to the one
whose last fraction bit is 0; past the largest finite binary32 by half a step or more it gives infinity, the model's
choice (assumption log 26). -/
def Obligations.AssemblerRoundsToNearestEven : Prop :=
  ∀ (n d : Nat), 0 < d →
    let q : Rat := (n : Rat) / (d : Rat)
    let f := binary32OfRatio n d
    (if n < d * ((2 ^ 25 - 1) * 2 ^ 103) then isFinite32 f = true else f = 0x7F800000#32)
      ∧ (isFinite32 f = true → ∀ g : F32, isFinite32 g = true →
        |val32 f - q| ≤ |val32 g - q|
          ∧ (|val32 f - q| = |val32 g - q| → val32 g ≠ val32 f → fraction32 f % 2 = 0))

/-! ## The step -/

/-- R110, R93: at the sequencer's turn, a whole command at the head of `CMD` is executed as one atomic step, from the
state with its words taken and the turn over. -/
def Obligations.StepRunsTheDecodedCommand : Prop :=
  ∀ (s : State) (ts : List Turn) (i : Instr) (rest : List Word),
    configOk s.cfg = true → s.turns = .command :: ts → decodeCommand s.cmd = .instr i rest →
    step s = exec i { s with turns := ts, cmd := rest }

/-- The framer's turn executes the frame placed for it (the model's own turn, assumption log 4; R146). -/
def Obligations.StepRunsThePlacedFrame : Prop :=
  ∀ (s : State) (ts : List Turn) (i : Instr),
    configOk s.cfg = true → s.turns = .framer :: ts → s.frameReq ≠ [] →
    decodeFrame s.cfg.frameMagic s.frameReq = .ok i →
    step s = exec i { s with turns := ts, frameReq := [] }

/-- R116, R117, R118: an illegal command gets its one-word response, has its words taken, and changes nothing else. -/
def Obligations.IllegalCommandOnlyResponds : Prop :=
  ∀ (s : State) (ts : List Turn) (why : IllegalSub) (rest : List Word),
    configOk s.cfg = true → s.turns = .command :: ts → decodeCommand s.cmd = .illegal why rest →
    step s = .next { s with
      turns := ts
      cmd := rest
      resp := s.resp ++ [[match why with
        | .unknownOpcode => 0x00000107#32
        | .reservedBits => 0x00000207#32
        | .badImmediate => 0x00000307#32]] }

/-- R118: every command that is executed gives exactly one response, whose `NRES` field counts its result words, with
no result word on an error. (R116 and R117's illegal commands: `IllegalCommandOnlyResponds`.) -/
def Obligations.EveryCommandRespondsOnce : Prop :=
  ∀ (i : Instr) (s t : State), (encodeCommand i).isSome = true → exec i s = .next t →
    ∃ (r0 : Word) (ws : List Word), t.resp = s.resp ++ [r0 :: ws] ∧ (highHalf r0).toNat = ws.length
      ∧ (opField r0 ≠ 0 → ws = [])

/-- R8: parameters that violate the rule are refused; and parameters that meet it and have the types of R7's table (which
the check also holds, assumption log 7) are never refused, whatever the timing table and the capacity of the buffer
memory. -/
def Obligations.IllFormedParametersAreRefused : Prop :=
  ∀ s : State,
    ((¬ (List.Pairwise (· ≤ ·) s.cfg.cal.breakpoints) ∨ s.cfg.cal.cubics = [] ∨ 65535 < s.cfg.maxCode
      ∨ s.cfg.scratchCapacity < 8 ∨ s.cfg.settleCount < 1) →
      step s = .refused .illFormedConfiguration)
    ∧ (List.Pairwise (· ≤ ·) s.cfg.cal.breakpoints → s.cfg.cal.cubics ≠ [] → s.cfg.maxCode ≤ 65535 →
      8 ≤ s.cfg.scratchCapacity → 1 ≤ s.cfg.settleCount →
      s.cfg.cal.breakpoints.length = s.cfg.cal.cubics.length + 1 → 1 ≤ s.cfg.maxCode → 1 ≤ s.cfg.busClockHz →
      s.cfg.fMin ≤ s.cfg.fMax → 0 < s.cfg.vref → 1 ≤ s.cfg.dmaGranule →
      step s ≠ .refused .illFormedConfiguration)

/-- R61, R361, 93 §3: the host has no step for a second command while a whole one waits; otherwise its word joins the
command, and nothing else changes. -/
def Obligations.HostDeliversOneCommand : Prop :=
  ∀ (s : State) (ts : List Turn) (w : Word), configOk s.cfg = true → s.turns = .deliver w :: ts →
    step s = if commandReady s.cmd then .refused .overlappingCommand
      else .next { s with turns := ts, cmd := s.cmd ++ [w] }

/-! ## Whole-machine rules -/

/-- R220: the complete transition relation of `STATE`, with the outcome of each command that has one. -/
def Obligations.StateTransitions : Prop :=
  ∀ (i : Instr) (s t : State), exec i s = .next t →
    match i with
    | .configure _ _ _ _ _ =>
      (t.mode = .configured ∧ t.resp = s.resp ++ [[0x00000000#32]])
        ∨ (t.mode = .idle ∧ ∃ r0, opField r0 ≠ 0 ∧ t.resp = s.resp ++ [[r0]])
    | .start =>
      if s.mode = .configured then t.mode = .running ∧ t.resp = s.resp ++ [[0x00000000#32]]
      else t.mode = s.mode ∧ t.resp = s.resp ++ [[0x00000106#32]]
    | .stop => t.mode = (if s.mode = .running then .configured else s.mode) ∧ t.resp = s.resp ++ [[0x00000000#32]]
    | _ => t.mode = s.mode

/-- R45, R93: no command and no frame writes `SEQ`, `TS`, `PARITY` or `IRQ_LATCHED`. -/
def Obligations.CommandsLeaveThePulseRecord : Prop :=
  ∀ (i : Instr) (s t : State), exec i s = .next t →
    t.seq = s.seq ∧ t.ts = s.ts ∧ t.parity = s.parity ∧ t.irq = s.irq

/-- R34: `CAL_FAIL` is written by nothing but reset; R7: the parameters by nothing at all. -/
def Obligations.OnlyResetWritesCalFail : Prop :=
  ∀ s t : State, step s = .next t →
    t.cfg = s.cfg ∧ (t.calFail ≠ s.calFail → s.nextTurn = .reset t.calFail)

/-- R37, R39, R215: `REQ`, `PROF`, the descriptors and the geometry of the two buffers are written by no command but
CONFIGURE, and by no tick and no handler run. -/
def Obligations.OnlyConfigureWritesTheBinding : Prop :=
  (∀ (i : Instr) (s t : State), isConfigure i = false → exec i s = .next t →
    t.req = s.req ∧ t.prof = s.prof ∧ t.tmDesc = s.tmDesc ∧ t.odDesc = s.odDesc ∧ t.smpDesc = s.smpDesc
      ∧ t.outBuf = s.outBuf ∧ t.inBuf = s.inBuf)
    ∧ (∀ (s t : State) (adc : Half), takeTurn (.tick adc) s = .next t →
      t.req = s.req ∧ t.prof = s.prof ∧ t.tmDesc = s.tmDesc ∧ t.odDesc = s.odDesc ∧ t.smpDesc = s.smpDesc
        ∧ t.outBuf = s.outBuf ∧ t.inBuf = s.inBuf)
    ∧ (∀ (s t : State) (ts : Word), takeTurn (.handler ts) s = .next t →
      t.req = s.req ∧ t.prof = s.prof ∧ t.tmDesc = s.tmDesc ∧ t.odDesc = s.odDesc ∧ t.smpDesc = s.smpDesc
        ∧ t.outBuf = s.outBuf ∧ t.inBuf = s.inBuf)

/-- R273, R274: a frame reaches `SINK` only through the sending commands (and the placed frames of the model's own turn,
assumption log 4): after every other instruction, after a tick, a handler run and a word from the host the history holds
the same frames as before, each as often and in the same order; and a sender adds at most one. -/
def Obligations.OnlySendersDeliverFrames : Prop :=
  (∀ (i : Instr) (s t : State), exec i s = .next t →
    if sendsFrame i then framesOf t.history = framesOf s.history ∨ ∃ F, framesOf t.history = framesOf s.history ++ [F]
    else framesOf t.history = framesOf s.history)
    ∧ (∀ (s t : State) (adc : Half), takeTurn (.tick adc) s = .next t → framesOf t.history = framesOf s.history)
    ∧ (∀ (s t : State) (ts : Word), takeTurn (.handler ts) s = .next t → framesOf t.history = framesOf s.history)
    ∧ (∀ (s t : State) (w : Word), takeTurn (.deliver w) s = .next t → framesOf t.history = framesOf s.history)

/-- R245, R248, R251, R315: the latch is set only by a tick that completes a half of the input buffer, and cleared only
by the handler's entry or by reset. -/
def Obligations.LatchRisesAndFallsByRule : Prop :=
  ∀ s t : State, step s = .next t →
    (s.irq = false → t.irq = true →
      (∃ adc, s.nextTurn = .tick adc) ∧ s.mode = .running ∧ t.tmPhase = 0
        ∧ t.smpIdx.toNat % (s.smpDesc.length.toNat / 2) = 0)
      ∧ (s.irq = true → t.irq = false →
        (∃ ts, s.nextTurn = .handler ts) ∨ (∃ b, s.nextTurn = .reset b))

/-! ## Invariants -/

/-- The invariant `State.Inv` (R36, R80, R82, R171, R187, R210, R226, R228, R250) holds after reset, for every
admitted configuration, every calibration answer and every value the cycle counter comes up with. -/
def Obligations.ResetMeetsTheInvariant : Prop :=
  State.reset.Inv ∧ ∀ (c : Config) (b : Bool) (w : Word), configOk c = true →
    (State.resetWith c b w).Inv ∧ (State.resetWith c b w).CursorsInStep
      ∧ (State.resetWith c b w).AllocBalanced ∧ (State.resetWith c b w).SeqCounts

/-- Every step keeps `State.Inv`: the enables follow `STATE` (R36), a block is either unbound or wholly bound
(R228), the descriptors, the geometry and the RampTable stay those of the bound profile (the exact lengths and the RampTable
wherever 32 bits hold the lengths, R38), the cursors stay inside. -/
def Obligations.StepKeepsTheInvariant : Prop :=
  ∀ s t : State, s.Inv → step s = .next t → t.Inv

/-- R81, R86, R88, R313: from a state of the invariant no step ends in a model-internal fault, whatever the capacity of
the buffer memory. -/
def Obligations.InvariantStatesNeverFault : Prop :=
  ∀ s : State, s.Inv → NoFault (step s)

/-- 93 §3, R118: from a state of the invariant every instruction comes to a next state: no command is stuck. -/
def Obligations.EveryInstructionAnswers : Prop :=
  ∀ (s : State) (i : Instr), s.Inv → ∃ t, exec i s = .next t

/-- From every state whatever, a step keeps the canonical form of both memories. -/
def Obligations.StepKeepsMemoriesCanonical : Prop :=
  ∀ s t : State, Memory.wf s.buf → Memory.wf s.scr → step s = .next t → Memory.wf t.buf ∧ Memory.wf t.scr

/-- R172, R251: the output driver and the sampler stay in step, so that one half of the input buffer is one traversal
of the RampTable, wherever 32 bits hold the lengths (R38). -/
def Obligations.StepKeepsCursorsInStep : Prop :=
  ∀ s t : State, lengthsFit s.cfg = true → s.Inv → s.CursorsInStep → step s = .next t → t.CursorsInStep

/-- R214: each buffer has at most one live allocation, and exactly one while it holds elements. -/
def Obligations.StepKeepsAllocationsBalanced : Prop :=
  ∀ s t : State, s.Inv → s.AllocBalanced → step s = .next t → t.AllocBalanced

/-- R42, R247: `SEQ` counts the handler runs since reset, modulo 2^32, and nothing else moves it. -/
def Obligations.StepKeepsSequenceCount : Prop :=
  ∀ s t : State, s.SeqCounts → step s = .next t → t.SeqCounts

/-- R187, R250, decision D15: every code that a step emits on `OD_OUT` lies in `[0, MAX_CODE]`, wherever 32 bits hold the
lengths (R38). -/
def Obligations.EmittedCodesAreLegal : Prop :=
  ∀ (s t : State) (v : Half), lengthsFit s.cfg = true → s.Inv → step s = .next t → Event.odOut v ∈ t.history →
    Event.odOut v ∈ s.history ∨ v.toNat ≤ s.cfg.maxCode

/-- R306: while `CAL_FAIL = 1`, no step but a reset takes the block out of `Idle`. -/
def Obligations.FailedCalibrationStaysIdle : Prop :=
  ∀ s t : State, s.Inv → s.calFail = true → step s = .next t → (∀ b, s.nextTurn ≠ .reset b) →
    t.mode = .idle ∧ t.calFail = true

/-! ## START, STOP, SET_TX_ENABLE, READ_STATUS -/

/-- R230, R64: START from `Configured` completes; what it writes, and that it writes nothing else. -/
def Obligations.StartEnablesTheSubsystems : Prop :=
  ∀ s : State, s.mode = .configured →
    exec .start s = .next { s with
      cycle := 0, tmPhase := 0, odIdx := 0, smpIdx := 0
      tmEn := true, odEn := true, odOutEn := true, smpEn := true
      odLast := none
      mode := .running
      resp := s.resp ++ [[0x00000000#32]] }

/-- R230, R308: START from any other state is refused by its response and changes nothing else. -/
def Obligations.StartNeedsConfigured : Prop :=
  ∀ s : State, s.mode ≠ .configured → exec .start s = .next { s with resp := s.resp ++ [[0x00000106#32]] }

/-- R235, R368: STOP completes from every state; what it clears, and that it touches nothing else. -/
def Obligations.StopDisablesTheSubsystems : Prop :=
  ∀ s : State, ∃ t, exec .stop s = .next t
    ∧ t = { s with
        tmEn := false, odEn := false, smpEn := false, odOutEn := false
        mode := if s.mode = .running then .configured else s.mode
        resp := s.resp ++ [[0x00000000#32]] }
    ∧ t.odOut = none ∧ t.trigOut = s.trigOut

/-- R236: from `Idle` or `Configured`, with the enables as rule R36 has them, STOP changes no state but its response. -/
def Obligations.StopIsIdempotent : Prop :=
  ∀ s : State, s.EnablesAgree → s.mode ≠ .running →
    exec .stop s = .next { s with resp := s.resp ++ [[0x00000000#32]] }

/-- R240, R63: SET_TX_ENABLE completes from every state; it writes `TX_EN`, `TRIG_OUT` follows at once, and nothing
else changes. -/
def Obligations.SetTxEnableWritesTheFlag : Prop :=
  ∀ (s : State) (v : Bool), ∃ t, exec (.setTxEnable v) s = .next t
    ∧ t = { s with txEn := v, resp := s.resp ++ [[0x00000000#32]] }
    ∧ t.trigOut = (s.parity && v)

/-- R242, R54: READ_STATUS completes from every state; its one result word has each bit where rule R54 puts it, and
nothing else changes. -/
def Obligations.ReadStatusShowsEveryFlag : Prop :=
  ∀ s : State, ∃ w : Word,
    exec .readStatus s = .next { s with resp := s.resp ++ [[0x00010000#32, w]] }
      ∧ (w.extractLsb' 0 2).toNat = (match s.mode with | .idle => 0 | .configured => 1 | .running => 2)
      ∧ w.getLsbD 2 = s.calFail ∧ w.getLsbD 3 = decide (s.seq ≠ s.lastEmitted) ∧ w.getLsbD 4 = s.txEn
      ∧ w.getLsbD 5 = s.parity ∧ w.getLsbD 6 = s.tmEn ∧ w.getLsbD 7 = s.odEn ∧ w.getLsbD 8 = s.odOutEn
      ∧ w.getLsbD 9 = s.smpEn ∧ w.getLsbD 10 = s.irq ∧ ∀ k, 11 ≤ k → w.getLsbD k = false

/-! ## The resolver -/

/-- R170, R121: RESOLVE of a duration the resolver accepts completes with the seven words of the profile, in the order
of R121, each of which 32 bits hold, and writes no state. -/
def Obligations.ResolveReportsTheProfile : Prop :=
  ∀ (s : State) (d : Half) (p : TimingProfile), resolve s.cfg d = .ok p →
    p.outLen < 4294967296 → p.tsf < 4294967296 → p.spc < 4294967296 → p.chDelay < 4294967296 →
    p.holdCount < 4294967296 → p.outInterval < 4294967296 → p.inLen < 4294967296 →
    exec (.resolve d) s = .next { s with
      resp := s.resp ++ [[0x00070000#32, BitVec.ofNat 32 p.outLen, BitVec.ofNat 32 p.tsf, BitVec.ofNat 32 p.spc,
        BitVec.ofNat 32 p.chDelay, BitVec.ofNat 32 p.holdCount, BitVec.ofNat 32 p.outInterval,
        BitVec.ofNat 32 p.inLen]] }

/-- R160 to R169: the row is the first of the table with the duration; which rejection it gets, in the order of the
checks; and a row that passes every check is accepted, with the profile of R161. `hold` is the row's hold count, of which
`HoldCountIsNearest` says what it is. -/
def Obligations.ResolverRejectionsInOrder : Prop :=
  ∀ (c : Config) (d : Half),
    (timingRow c d = none ↔ ∀ row ∈ c.timingTable, row.durationMs ≠ d)
      ∧ (∀ row, timingRow c d = some row ↔ ∃ before after, c.timingTable = before ++ row :: after
        ∧ row.durationMs = d ∧ ∀ r ∈ before, r.durationMs ≠ d)
      ∧ (timingRow c d = none → resolve c d = .error .unsupportedDuration)
      ∧ ∀ row, timingRow c d = some row →
        let hold := holdCount c d row.outLen
        let spc := row.tsf * hold
        let inLen := 2 * (row.outLen / row.tsf)
        (row.outLen = 0 → resolve c d = .error .unsupportedDuration)
          ∧ (row.outLen ≠ 0 → row.tsf = 0 → resolve c d = .error .zeroScale)
          ∧ (row.outLen ≠ 0 → row.tsf ≠ 0 → row.outLen % row.tsf ≠ 0 → resolve c d = .error .inexactDivision)
          ∧ (row.outLen ≠ 0 → row.tsf ≠ 0 → row.outLen % row.tsf = 0 →
            (spc = 0 ∨ spc < c.settleCount ∨ 2 ^ c.counterWidth - 1 < spc ∨ 2 ^ c.counterWidth - 1 < hold) →
            resolve c d = .error .countRange)
          ∧ (row.outLen ≠ 0 → row.tsf ≠ 0 → row.outLen % row.tsf = 0 →
            ¬ (spc = 0 ∨ spc < c.settleCount ∨ 2 ^ c.counterWidth - 1 < spc ∨ 2 ^ c.counterWidth - 1 < hold) →
            ((2 * row.outLen) % c.dmaGranule ≠ 0 ∨ (2 * inLen) % c.dmaGranule ≠ 0) →
            resolve c d = .error .granularity)
          ∧ (row.outLen ≠ 0 → row.tsf ≠ 0 → row.outLen % row.tsf = 0 →
            ¬ (spc = 0 ∨ spc < c.settleCount ∨ 2 ^ c.counterWidth - 1 < spc ∨ 2 ^ c.counterWidth - 1 < hold) →
            ¬ ((2 * row.outLen) % c.dmaGranule ≠ 0 ∨ (2 * inLen) % c.dmaGranule ≠ 0) →
            resolve c d = .ok
              { outLen := row.outLen, tsf := row.tsf, holdCount := hold, spc := spc, inLen := inLen
                chDelay := spc - 1 - (c.settleCount - 1), outInterval := hold - 1 })

/-- R170, R303: RESOLVE of a duration the resolver rejects completes with the error word of its sub-cause and writes
no state. -/
def Obligations.ResolveReportsTheRejection : Prop :=
  ∀ (s : State) (d : Half) (e : ConfigSub), resolve s.cfg d = .error e →
    exec (.resolve d) s = .next { s with
      resp := s.resp ++ [[match e with
        | .unsupportedDuration => 0x00000101#32
        | .zeroScale => 0x00000201#32
        | .inexactDivision => 0x00000301#32
        | .countRange => 0x00000401#32
        | .granularity => 0x00000501#32]] }

/-- R171: what holds of every profile that the resolver returns, under parameters that R8 admits. -/
def Obligations.ResolvedProfileIsSound : Prop :=
  ∀ (c : Config) (d : Half) (p : TimingProfile), configOk c = true → resolve c d = .ok p →
    p.inLen = 2 * (p.outLen / p.tsf) ∧ p.outLen % p.tsf = 0
      ∧ p.holdCount ≤ 2 ^ c.counterWidth - 1 ∧ p.spc ≤ 2 ^ c.counterWidth - 1
      ∧ p.chDelay ≤ 2 ^ c.counterWidth - 1 ∧ p.outInterval ≤ 2 ^ c.counterWidth - 1
      ∧ 1 ≤ p.outLen ∧ 1 ≤ p.tsf ∧ 1 ≤ p.holdCount ∧ 2 ≤ p.inLen ∧ p.inLen % 2 = 0
      ∧ p.chDelay + c.settleCount = p.spc
      ∧ (2 * p.outLen) % c.dmaGranule = 0 ∧ (2 * p.inLen) % c.dmaGranule = 0

/-- R11, R161, R168: in exact arithmetic the hold count is the integer nearest to `BUS_CLOCK_HZ · hold_us · 10^-6`,
and the upper one of two that are equally near; all multiplied out over the naturals. -/
def Obligations.HoldCountIsNearest : Prop :=
  ∀ (c : Config) (d : Half) (outLen : Nat), 1 ≤ outLen → c.resolveArith = .exact →
    let h := holdCount c d outLen
    (c.holdDiv = .exact →
      2 * h * (outLen * 1000000) ≤ 2 * (c.busClockHz * (d.toNat * 1000)) + outLen * 1000000
        ∧ 2 * (c.busClockHz * (d.toNat * 1000)) < (2 * h + 1) * (outLen * 1000000))
      ∧ (c.holdDiv = .truncate →
        2 * h * 1000000 ≤ 2 * (c.busClockHz * (d.toNat * 1000 / outLen)) + 1000000
          ∧ 2 * (c.busClockHz * (d.toNat * 1000 / outLen)) < (2 * h + 1) * 1000000)

/-! ## The ramp generator -/

/-- R182 to R189: under exact arithmetic and `multi`, the walk with its cursor gives exactly the codes of a fresh
search for each sample's segment, in the order the direction asks for (R188; under divisor `N` against the words of
R191, assumption log 27); and where a sample fails, it fails with the sub-cause of the first failing sample. What each
sample comes to is said by `RampSamplesSpanTheInterval`. -/
def Obligations.RampWalkIsFreshSearch : Prop :=
  ∀ (c : Config) (fs fe : F32) (n : Nat), configOk c = true → c.rampArith = .exact → c.segmentAdvance = .multi →
    endpointOk c fs = true → endpointOk c fe = true →
    let sample := fun i => checkedCode c (freshSample c (rampLow fs fe) (rampHigh fs fe) n i)
    (∀ vs : List Half, rampCodes c fs fe n = .ok vs ↔
      vs.length = n ∧ ∀ i < n, sample i = .ok (vs.getD (if val32 fe < val32 fs then n - 1 - i else i) 0))
      ∧ ∀ e : RangeSub, rampCodes c fs fe n = .error e ↔
        ∃ i < n, (∀ j < i, ∃ v, sample j = .ok v) ∧ sample i = .error e

/-- R182: an endpoint that is not finite, or lies outside the closed interval, fails the ramp with `ENDPOINT`, for
every count. -/
def Obligations.BadEndpointFailsTheRamp : Prop :=
  ∀ (c : Config) (fs fe : F32) (n : Nat),
    (isFinite32 fs = false ∨ val32 fs < c.fMin ∨ c.fMax < val32 fs
      ∨ isFinite32 fe = false ∨ val32 fe < c.fMin ∨ c.fMax < val32 fe) →
    rampCodes c fs fe n = .error .endpoint

/-- R184 to R187: where the samples of a ramp begin and end under each divisor; and what each sample comes to, with the
sample's frequency written out: below the first breakpoint, above the last one, or in the lowest segment `k` whose upper
breakpoint it does not exceed, where the voltage is the cubic in the offset `x`, and the code is the integer nearest to
`v / VREF · MAX_CODE`, ties away from zero, minus 1, or `CODE_RANGE` exactly outside `[0, MAX_CODE]`. (The order in which a
descending ramp stands in the buffer, which R191 words otherwise for divisor `N`: `RampWalkIsFreshSearch`, log 27.) -/
def Obligations.RampSamplesSpanTheInterval : Prop :=
  ∀ (c : Config) (lo hi : Rat) (n : Nat), 1 ≤ n →
    sampleFreq c lo hi n 0 = lo
      ∧ (c.stepDivisor = .nMinusOne → 2 ≤ n → sampleFreq c lo hi n (n - 1) = hi)
      ∧ (c.stepDivisor = .n → sampleFreq c lo hi n (n - 1) = hi - (hi - lo) / n)
      ∧ (c.maxCode ≤ 65535 → ∀ i < n,
        let f : Rat := match c.stepDivisor with
          | .nMinusOne => if n = 1 then lo else lo + (hi - lo) * i / (n - 1)
          | .n => lo + (hi - lo) * i / n
        let b := fun k : Nat => c.cal.breakpoints.getD k 0
        let out := checkedCode c (freshSample c lo hi n i)
        (f < b 0 → out = .error .belowCoverage)
          ∧ (b 0 ≤ f → (∀ k < c.cal.cubics.length, b (k + 1) < f) → out = .error .coverageExhausted)
          ∧ (b 0 ≤ f → ∀ (k : Nat) (q : Cubic), c.cal.cubics[k]? = some q → f ≤ b (k + 1) →
            (∀ j < k, b (j + 1) < f) →
            let x := f - b k
            let scaled := (q.c0 + q.c1 * x + q.c2 * x ^ 2 + q.c3 * x ^ 3) / c.vref * c.maxCode
            ∀ z : Int, |scaled - z| ≤ 1 / 2 → (|scaled - z| = 1 / 2 → |scaled| < |(z : Rat)|) →
              if 0 ≤ z - 1 ∧ z - 1 ≤ c.maxCode then ∃ v : Half, out = .ok v ∧ (v.toNat : Int) = z - 1
              else out = .error .codeRange))

/-- R193: a ramp and the ramp with its endpoints swapped succeed or fail together, with the same sub-cause, and give
exactly reversed codes. With endpoints of equal value both are ascending (R183): then the codes are the same, and
under exact arithmetic and `multi` still the reversed ones. -/
def Obligations.SwappedEndpointsReverseTheRamp : Prop :=
  ∀ (c : Config) (fs fe : F32) (n : Nat),
    (∀ e, rampCodes c fs fe n = .error e ↔ rampCodes c fe fs n = .error e)
      ∧ (val32 fs ≠ val32 fe → ∀ vs, rampCodes c fs fe n = .ok vs ↔ rampCodes c fe fs n = .ok vs.reverse)
      ∧ (val32 fs = val32 fe → rampCodes c fs fe n = rampCodes c fe fs n)
      ∧ (val32 fs = val32 fe → c.rampArith = .exact → c.segmentAdvance = .multi →
        ∀ vs, rampCodes c fs fe n = .ok vs → vs.reverse = vs)

/-- R188, R190: a filled output buffer holds the RampTable of the request, the triangle's two ramps with no overlap and
no gap, and no byte outside it changed; every other piece of state is as it was. -/
def Obligations.FilledBufferIsTheRampTable : Prop :=
  ∀ (s t : State) (q : Request) (len : Nat), fillRamp s q len = .ok (.done t) →
    ∃ codes, rampTable s.cfg q len = .ok codes ∧ codes.length = len
      ∧ (∀ i < len, elementAt t s.outBuf i = codes.getD i 0)
      ∧ (∀ a, (a < s.outBuf.base.toNat ∨ s.outBuf.base.toNat + 2 * len ≤ a) →
        t.byteAt .buf a = s.byteAt .buf a)
      ∧ t = { s with buf := t.buf }

/-- R195: GENERATE in `Configured`, with its region inside `OUT_BUF` and a ramp that succeeds, completes: the region
holds the ramp's codes, every other byte is unchanged, and so is all other state. The two hypotheses on the buffer
(even base, inside the memory) hold of every state of the invariant. -/
def Obligations.GenerateWritesTheRegion : Prop :=
  ∀ (s : State) (n off : Half) (fs fe : F32) (vs : List Half), s.mode = .configured →
    off.toNat + n.toNat ≤ s.outBuf.len.toNat → s.outBuf.base.toNat % 2 = 0 →
    s.outBuf.base.toNat + 2 * s.outBuf.len.toNat ≤ s.cfg.bufCapacity →
    rampCodes s.cfg fs fe n.toNat = .ok vs →
    ∃ t, exec (.generate n off fs fe) s = .next t
      ∧ vs.length = n.toNat
      ∧ (∀ i < n.toNat, elementAt t s.outBuf (off.toNat + i) = vs.getD i 0)
      ∧ (∀ a, (a < elementAddr s.outBuf off.toNat ∨ elementAddr s.outBuf off.toNat + 2 * n.toNat ≤ a) →
        t.byteAt .buf a = s.byteAt .buf a)
      ∧ t = { s with buf := t.buf, resp := s.resp ++ [[0x00000000#32]] }

/-- R195, R312: where GENERATE is refused or its ramp fails, only its response is given. -/
def Obligations.GenerateErrorsChangeNothing : Prop :=
  ∀ (s : State) (n off : Half) (fs fe : F32),
    (s.mode ≠ .configured →
      exec (.generate n off fs fe) s = .next { s with resp := s.resp ++ [[0x00000106#32]] })
      ∧ (s.mode = .configured → s.outBuf.len.toNat < off.toNat + n.toNat →
        exec (.generate n off fs fe) s = .next { s with resp := s.resp ++ [[0x00000502#32]] })
      ∧ (s.mode = .configured → off.toNat + n.toNat ≤ s.outBuf.len.toNat →
        ∀ e, rampCodes s.cfg fs fe n.toNat = .error e →
          exec (.generate n off fs fe) s = .next { s with
            resp := s.resp ++ [[match e with
              | .endpoint => 0x00000102#32
              | .coverageExhausted => 0x00000202#32
              | .belowCoverage => 0x00000302#32
              | .codeRange => 0x00000402#32
              | .region => 0x00000502#32]] })

/-! ## CONFIGURE -/

/-- R221, R210, R226, R227, R228(a): a CONFIGURE whose every sub-step succeeds completes, from every state: what is
bound, programmed, recorded and emitted, the RampTable in `OUT_BUF`, free bytes in `IN_BUF` (R84), every byte outside
the two buffers unchanged, and all other state as it was. -/
def Obligations.ConfigureBindsTheRequest : Prop :=
  ∀ (s : State) (d g : Half) (fs fe fr : F32) (p : TimingProfile) (codes : List Half),
    s.calFail = false → resolve s.cfg d = .ok p → 2 * p.outLen + 2 * p.inLen ≤ s.cfg.bufCapacity →
    2 * p.outLen + 2 * p.inLen ≤ 4294967296 → s.cfg.counterWidth ≤ 32 →
    rampTable s.cfg ⟨true, d, g, fs, fe, fr⟩ p.outLen = .ok codes →
    ∃ t, exec (.configure d g fs fe fr) s = .next t
      ∧ codes.length = p.outLen
      ∧ (∀ i < p.outLen, elementAt t t.outBuf i = codes.getD i 0)
      ∧ (∀ a, 2 * p.outLen ≤ a → a < 2 * p.outLen + 2 * p.inLen →
        t.byteAt .buf a = Config.allocatedByte s.draws a)
      ∧ (∀ a, 2 * p.outLen + 2 * p.inLen ≤ a → t.byteAt .buf a = s.byteAt .buf a)
      ∧ t = { s with
          mode := .configured
          tmEn := if s.mode = .running then false else s.tmEn
          odEn := if s.mode = .running then false else s.odEn
          odOutEn := if s.mode = .running then false else s.odOutEn
          smpEn := if s.mode = .running then false else s.smpEn
          lastEmitted := s.seq
          req := ⟨true, d, g, fs, fe, fr⟩
          prof := ⟨true, BitVec.ofNat 32 p.outLen, BitVec.ofNat 32 p.tsf, BitVec.ofNat 32 p.holdCount,
            BitVec.ofNat 32 p.spc, BitVec.ofNat 32 p.chDelay, BitVec.ofNat 32 p.outInterval,
            BitVec.ofNat 32 p.inLen⟩
          tmDesc := ⟨BitVec.ofNat 32 p.spc, BitVec.ofNat 32 p.chDelay, BitVec.ofNat 32 p.outInterval,
            BitVec.ofNat 32 p.tsf⟩
          odDesc := ⟨0, 2, BitVec.ofNat 32 p.outLen, .circular⟩
          smpDesc := ⟨BitVec.ofNat 32 (2 * p.outLen), 2, BitVec.ofNat 32 p.inLen, .pingPong⟩
          outBuf := ⟨0, BitVec.ofNat 32 p.outLen⟩
          inBuf := ⟨BitVec.ofNat 32 (2 * p.outLen), BitVec.ofNat 32 p.inLen⟩
          buf := t.buf
          draws := s.draws + 1
          history := s.history ++ (releaseEvents s ++ [Event.alloc .out 0 (BitVec.ofNat 32 p.outLen),
            Event.alloc .inp (BitVec.ofNat 32 (2 * p.outLen)) (BitVec.ofNat 32 p.inLen), Event.gain g])
          resp := s.resp ++ [[0x00000000#32]] }

/-- R221, R222, R306, R312: a CONFIGURE that the calibration, the resolver or the allocation stops rolls back: idle,
nothing bound, buffers released, the pending pulse discarded, memory untouched. -/
def Obligations.ConfigureRollsBackBeforeTheRamp : Prop :=
  ∀ (s : State) (d g : Half) (fs fe fr : F32),
    (s.calFail = true →
      exec (.configure d g fs fe fr) s = .next (s.rolledBack (releaseEvents s) 0x00000105#32))
      ∧ (s.calFail = false → ∀ e, resolve s.cfg d = .error e →
        exec (.configure d g fs fe fr) s = .next (s.rolledBack (releaseEvents s)
          (match e with
            | .unsupportedDuration => 0x00000101#32
            | .zeroScale => 0x00000201#32
            | .inexactDivision => 0x00000301#32
            | .countRange => 0x00000401#32
            | .granularity => 0x00000501#32)))
      ∧ (s.calFail = false → ∀ p, resolve s.cfg d = .ok p →
        s.cfg.bufCapacity < 2 * p.outLen + 2 * p.inLen →
        exec (.configure d g fs fe fr) s = .next (s.rolledBack (releaseEvents s) 0x00000103#32))

/-- R221, R222, R312: a CONFIGURE whose ramp fails has allocated and releases again: idle, nothing bound, both buffers
empty, no gain event, and no byte outside the storage it had been handed changed. -/
def Obligations.ConfigureRollsBackAfterTheRamp : Prop :=
  ∀ (s : State) (d g : Half) (fs fe fr : F32) (p : TimingProfile) (e : RangeSub),
    s.calFail = false → resolve s.cfg d = .ok p → 2 * p.outLen + 2 * p.inLen ≤ s.cfg.bufCapacity →
    2 * p.outLen + 2 * p.inLen ≤ 4294967296 → rampTable s.cfg ⟨true, d, g, fs, fe, fr⟩ p.outLen = .error e →
    ∃ t, exec (.configure d g fs fe fr) s = .next t
      ∧ (∀ a, 2 * p.outLen + 2 * p.inLen ≤ a → t.byteAt .buf a = s.byteAt .buf a)
      ∧ t = { s.rolledBack (releaseEvents s ++ [Event.alloc .out 0 (BitVec.ofNat 32 p.outLen),
                Event.alloc .inp (BitVec.ofNat 32 (2 * p.outLen)) (BitVec.ofNat 32 p.inLen),
                Event.free .out, Event.free .inp])
              (match e with
                | .endpoint => 0x00000102#32
                | .coverageExhausted => 0x00000202#32
                | .belowCoverage => 0x00000302#32
                | .codeRange => 0x00000402#32
                | .region => 0x00000502#32) with
              outBuf := ⟨0, 0⟩, inBuf := ⟨0, 0⟩, buf := t.buf, draws := s.draws + 1 }

/-! ## The framer -/

/-- R280, R143: SEND_HEARTBEAT with room in the scratch region completes: the frame carries a draw of the cycle
counter. Without room it gives only its response. The counter of draws is the model's own (assumption log 5). -/
def Obligations.HeartbeatIsSent : Prop :=
  ∀ s : State,
    (12 ≤ s.cfg.scratchCapacity →
      let F := le32 s.cfg.frameMagic ++ ([0x04#8, 0, 0, 0] ++ le32 (Config.cycleRead s.draws))
      ∃ t, exec .sendHeartbeat s = .next t ∧ ScratchHolds s t F
        ∧ t = { s with
            scr := t.scr, draws := s.draws + 1
            history := s.history ++ [Event.frame F], resp := s.resp ++ [[0x00000000#32]] })
      ∧ (s.cfg.scratchCapacity < 12 →
        exec .sendHeartbeat s
          = .next { s with draws := s.draws + 1, resp := s.resp ++ [[0x00000104#32]] })

/-- R281, R144, R272: SEND_LOG completes with its frame in `SCR` and on `SINK`, or fails closed with the response of
the first check that fails. -/
def Obligations.LogIsSent : Prop :=
  ∀ (s : State) (category severity : Half) (text : List Byte),
    (12 + text.length ≤ s.cfg.scratchCapacity → 4 + text.length ≤ 65535 →
      let F := le32 s.cfg.frameMagic ++ (le16 (BitVec.ofNat 16 (4 + text.length)) ++ ([0x01#8, 0]
        ++ (le16 category ++ (le16 severity ++ text))))
      ∃ t, exec (.sendLog category severity text) s = .next t ∧ ScratchHolds s t F
        ∧ t = { s with
            scr := t.scr
            history := s.history ++ [Event.frame F], resp := s.resp ++ [[0x00000000#32]] })
      ∧ (s.cfg.scratchCapacity < 12 + text.length →
        exec (.sendLog category severity text) s = .next { s with resp := s.resp ++ [[0x00000104#32]] })
      ∧ (12 + text.length ≤ s.cfg.scratchCapacity → 65535 < 4 + text.length →
        exec (.sendLog category severity text) s = .next { s with resp := s.resp ++ [[0x00000204#32]] })

/-- R282, R145, R272: SEND_REPLY completes with its frame in `SCR` and on `SINK`, or fails closed with the response of
the first check that fails. -/
def Obligations.ReplyIsSent : Prop :=
  ∀ (s : State) (status : Half) (text : List Byte),
    (10 + text.length ≤ s.cfg.scratchCapacity → 2 + text.length ≤ 65535 →
      let F := le32 s.cfg.frameMagic ++ (le16 (BitVec.ofNat 16 (2 + text.length)) ++ ([0x02#8, 0]
        ++ (le16 status ++ text)))
      ∃ t, exec (.sendReply status text) s = .next t ∧ ScratchHolds s t F
        ∧ t = { s with
            scr := t.scr
            history := s.history ++ [Event.frame F], resp := s.resp ++ [[0x00000000#32]] })
      ∧ (s.cfg.scratchCapacity < 10 + text.length →
        exec (.sendReply status text) s = .next { s with resp := s.resp ++ [[0x00000104#32]] })
      ∧ (10 + text.length ≤ s.cfg.scratchCapacity → 65535 < 2 + text.length →
        exec (.sendReply status text) s = .next { s with resp := s.resp ++ [[0x00000204#32]] })

/-- R140 to R145, R270, R273: each of the four frames (FRAME_HEARTBEAT, FRAME_LOG, FRAME_REPLY, FRAME_PULSE) that
fits completes: its bytes stand in `SCR` and go to `SINK`, with no response; one that does not fit is lost and changes
nothing. That a frame row is executed by the send unit is the model's choice (assumption log 4). -/
def Obligations.FramesAreDelivered : Prop :=
  ∀ (s : State) (i : Instr) (F : List Byte), encodeFrame s.cfg.frameMagic i = some F →
    (F.length ≤ s.cfg.scratchCapacity → wellFormed i = true →
      ∃ t, exec i s = .next t ∧ ScratchHolds s t F
        ∧ t = { s with scr := t.scr, history := s.history ++ [Event.frame F] })
      ∧ ((s.cfg.scratchCapacity < F.length ∨ wellFormed i = false) → exec i s = .next s)

/-- R285, R286, R287, R142: EMIT_PULSE of a pending pulse completes: the frame decodes to the snapshot, the bound
request and the samples of the half the sampler is not filling, read from the frozen buffer, or drawn while the sampler
runs; the pulse is consumed; nothing else changes. The hypotheses on `IN_BUF` hold of every state of the invariant. -/
def Obligations.PulseIsEmitted : Prop :=
  ∀ s : State, s.mode ≠ .idle → s.seq ≠ s.lastEmitted →
    s.inBuf.len = s.prof.inLen → s.inBuf.base.toNat % 2 = 0 →
    s.inBuf.base.toNat + 2 * s.inBuf.len.toNat ≤ s.cfg.bufCapacity →
    let K := s.prof.inLen.toNat / 2
    let h := if s.smpIdx.toNat < K then 1 else 0
    let d := if s.smpEn then (List.range K).map (Config.racedSample s.draws)
      else (List.range K).map fun j => elementAt s s.inBuf (h * K + j)
    40 + 2 * K ≤ s.cfg.scratchCapacity → 32 + 2 * K ≤ 65535 →
    ∃ t F, exec .emitPulse s = .next t
      ∧ decodeFrame s.cfg.frameMagic F = .ok (.framePulse s.seq s.ts (if s.parity then 1 else 0) s.req.gain
        s.req.duration s.req.fStart s.req.fStop s.req.fReturn d)
      ∧ ScratchHolds s t F
      ∧ t = { s with
          lastEmitted := s.seq, draws := if s.smpEn then s.draws + 1 else s.draws
          scr := t.scr
          history := s.history ++ [Event.frame F], resp := s.resp ++ [[0x00000000#32]] }

/-- R285, R312: EMIT_PULSE in `Idle`, with nothing pending, and with no room for the frame. In the last case the pulse
is consumed all the same. That `NO_PULSE` shows its sub-cause 1 in the response word follows R118 and R120 against the
word in R285's example (assumption log 9). -/
def Obligations.PulseRefusals : Prop :=
  ∀ s : State,
    (s.mode = .idle → exec .emitPulse s = .next { s with resp := s.resp ++ [[0x00000106#32]] })
      ∧ (s.mode ≠ .idle → s.seq = s.lastEmitted →
        exec .emitPulse s = .next { s with resp := s.resp ++ [[0x00000108#32]] })
      ∧ (s.mode ≠ .idle → s.seq ≠ s.lastEmitted → s.inBuf.len = s.prof.inLen → s.inBuf.base.toNat % 2 = 0 →
        s.inBuf.base.toNat + 2 * s.inBuf.len.toNat ≤ s.cfg.bufCapacity →
        (s.cfg.scratchCapacity < 40 + 2 * (s.prof.inLen.toNat / 2) →
          exec .emitPulse s = .next { s with
            lastEmitted := s.seq, draws := if s.smpEn then s.draws + 1 else s.draws
            resp := s.resp ++ [[0x00000104#32]] })
          ∧ (40 + 2 * (s.prof.inLen.toNat / 2) ≤ s.cfg.scratchCapacity →
            65535 < 32 + 2 * (s.prof.inLen.toNat / 2) →
            exec .emitPulse s = .next { s with
              lastEmitted := s.seq, draws := if s.smpEn then s.draws + 1 else s.draws
              resp := s.resp ++ [[0x00000204#32]] }))

/-! ## The tick, the handler and reset -/

/-- R250, R251, R252: a tick of a running block, from a state of the invariant: the code emitted, the cursors, the
sample written where the sampler's cursor stood, the latch at the end of a half; every other byte and all other state
unchanged. -/
def Obligations.TickMovesBothCursors : Prop :=
  ∀ (s : State) (adc : Half) (ts : List Turn), s.Inv → s.mode = .running → s.turns = .tick adc :: ts →
    let code := elementAt s s.outBuf s.odIdx.toNat
    let sampled := s.tmPhase.toNat + 1 = s.prof.tsf.toNat
    let next := (s.smpIdx.toNat + 1) % s.prof.inLen.toNat
    let at_ := elementAddr s.inBuf s.smpIdx.toNat
    ∃ t, step s = .next t
      ∧ (sampled → elementAt t s.inBuf s.smpIdx.toNat = adc)
      ∧ (∀ a, (sampled → a < at_ ∨ at_ + 2 ≤ a) → t.byteAt .buf a = s.byteAt .buf a)
      ∧ t = { s with
          turns := ts
          odLast := some code
          odIdx := BitVec.ofNat 32 ((s.odIdx.toNat + 1) % s.prof.outLen.toNat)
          history := s.history ++ [Event.odOut code]
          tmPhase := if sampled then 0 else s.tmPhase + 1
          smpIdx := if sampled then BitVec.ofNat 32 next else s.smpIdx
          irq := s.irq || decide (sampled ∧ next % (s.prof.inLen.toNat / 2) = 0)
          buf := t.buf }

/-- R246, R326, R327: the handler's turn with the latch set writes the latch, `SEQ`, `TS` and `PARITY`, records the
run, and changes nothing else, in every state of the block: that a latch left standing by STOP is taken too is the model's
reading (assumption log 23). That a turn with the latch clear passes is the model's choice (assumption log 5). -/
def Obligations.HandlerWritesThePulseRecord : Prop :=
  ∀ (s : State) (w : Word) (ts : List Turn), configOk s.cfg = true → s.turns = .handler w :: ts →
    step s = .next (if s.irq then
        { s with
          turns := ts, irq := false, seq := s.seq + 1, ts := w
          parity := s.txEn && (s.seq + 1).getLsbD 0
          history := s.history ++ [Event.handler (s.seq + 1) w (s.txEn && (s.seq + 1).getLsbD 0)] }
      else { s with turns := ts })

/-- R247: `N` handler runs raise `SEQ` by exactly `N` modulo 2^32; while `TX_EN` is set the parity alternates at every
run; while it is clear the parity is 0 after every run and `TRIG_OUT` is 0. -/
def Obligations.HandlerRunsCountAndAlternate : Prop :=
  ∀ (l : List Word) (s : State),
    (handlerRuns l s).seq = s.seq + BitVec.ofNat 32 l.length
      ∧ (s.txEn = true → ∀ a b : Word,
        ((handlerRuns l s).takeInterrupt a).parity = (s.seq + BitVec.ofNat 32 (l.length + 1)).getLsbD 0
          ∧ (handlerRuns (l ++ [a, b]) s).parity = !(handlerRuns (l ++ [a]) s).parity)
      ∧ (s.txEn = false → (handlerRuns l s).trigOut = false
        ∧ (l ≠ [] → (handlerRuns l s).parity = false))

/-- R340, R341, R343: reset as a step, from every state: every piece of state of R340's table at its reset value, the
calibration answer in `CAL_FAIL`, the parameters kept. The cycle counter is a draw; that the schedule, the counters of
draws and resets go on, and that the responses given are forgotten with the history, are the model's choices
(assumption log 3, 5 and 20). -/
def Obligations.ResetSetsEveryPieceOfState : Prop :=
  ∀ (s : State) (b : Bool) (ts : List Turn), configOk s.cfg = true → s.turns = .reset b :: ts →
    step s = .next
      { cfg := s.cfg, mode := .idle, calFail := b, txEn := false
        tmEn := false, odEn := false, odOutEn := false, smpEn := false
        req := ⟨false, 0, 0, 0, 0, 0⟩, prof := ⟨false, 0, 0, 0, 0, 0, 0, 0⟩
        tmDesc := ⟨0, 0, 0, 0⟩, odDesc := ⟨0, 0, 0, .none⟩, smpDesc := ⟨0, 0, 0, .none⟩
        outBuf := ⟨0, 0⟩, inBuf := ⟨0, 0⟩
        seq := 0, ts := 0, parity := false, lastEmitted := 0, irq := false
        odIdx := 0, smpIdx := 0, tmPhase := 0, cycle := Config.cycleRead s.draws, odLast := none
        buf := [], scr := [], history := [], resp := [], cmd := [], frameReq := []
        turns := ts, draws := s.draws + 1, resets := s.resets + 1 }
end

