-- ==== Sys2Proof/Laws/Assembler.lean ====
section
/-! SUPPORT. What the assembler's rounding and its pseudo-instructions can do (30_encoding.md rules R150, R151). -/

namespace Sys2Proof.Machine

/-- Every command a pseudo-instruction expands to has an encoding (rule R151). -/
theorem expandPseudo_encodes (p : Pseudo) (is : List Instr) (h : expandPseudo p = .ok is) :
    ∀ i ∈ is, wellFormed i = true ∧ (encodeCommand i).isSome = true := by
  cases p <;> simp only [expandPseudo] at h
  case triangle =>
    split at h <;> cases h
    simp [wellFormed, encodeCommand]
  all_goals
    cases h
    simp [wellFormed, encodeCommand]

/-- The rounded quotient is at most half a unit away, and even where it is exactly half (rule R150). -/
theorem divNearestEven_near (n d : Nat) (h : 0 < d) :
    2 * n ≤ 2 * (d * divNearestEven n d) + d ∧ 2 * (d * divNearestEven n d) ≤ 2 * n + d
      ∧ (2 * n = 2 * (d * divNearestEven n d) + d ∨ 2 * (d * divNearestEven n d) = 2 * n + d →
        divNearestEven n d % 2 = 0) := by
  have hn := Nat.div_add_mod n d
  have hr := Nat.mod_lt n h
  unfold divNearestEven
  split
  · omega
  · rw [Nat.mul_add]
    omega

end Sys2Proof.Machine
end

