-- ==== Sys2Proof/Laws/Encoding.lean ====
section
/-! SUPPORT. The small lemmas of the bit fields, the byte order and the text packing of Decode.lean; later proofs cite
these and unfold none of them. -/

namespace Sys2Proof

/-! ## Fields of a concatenation -/

/-- A field inside the lower part. -/
theorem extract_append_low {n m : Nat} (x : BitVec n) (y : BitVec m) {k w : Nat} (h : k + w ≤ m) :
    (x ++ y).extractLsb' k w = y.extractLsb' k w := by
  apply BitVec.eq_of_getLsbD_eq
  intro i hi
  simp only [BitVec.getLsbD_extractLsb', BitVec.getLsbD_append]
  rw [if_pos (by omega)]

/-- A field inside the upper part. -/
theorem extract_append_high {n m : Nat} (x : BitVec n) (y : BitVec m) {k w : Nat} (h : m ≤ k) :
    (x ++ y).extractLsb' k w = x.extractLsb' (k - m) w := by
  apply BitVec.eq_of_getLsbD_eq
  intro i hi
  simp only [BitVec.getLsbD_extractLsb', BitVec.getLsbD_append]
  rw [if_neg (by omega), show k + i - m = k - m + i by omega]

/-- The whole of a word as a field of it. -/
theorem extract_all {n : Nat} (x : BitVec n) : x.extractLsb' 0 n = x := by
  apply BitVec.eq_of_getLsbD_eq
  intro i hi
  simp [hi]

/-- Two neighbouring fields side by side are one field. -/
theorem extract_join {n : Nat} (x : BitVec n) (k w v : Nat) :
    x.extractLsb' (k + w) v ++ x.extractLsb' k w = x.extractLsb' k (v + w) := by
  apply BitVec.eq_of_getLsbD_eq
  intro i hi
  simp only [BitVec.getLsbD_extractLsb', BitVec.getLsbD_append]
  split
  · rename_i h
    rw [decide_eq_true h, decide_eq_true (by omega : i < v + w)]
  · rw [show k + w + (i - w) = k + i by omega, decide_eq_true (by omega : i - w < v),
      decide_eq_true (by omega : i < v + w)]

/-! ## Header and operand words -/

@[simp] theorem opField_headerWord (op : BitVec 8) (imm : Half) : opField (headerWord op imm) = op :=
  ((extract_append_low imm (0#8 ++ op) (by omega)).trans (extract_append_low 0#8 op (by omega))).trans (extract_all op)

@[simp] theorem rsvField_headerWord (op : BitVec 8) (imm : Half) : rsvField (headerWord op imm) = 0 :=
  ((extract_append_low imm (0#8 ++ op) (by omega)).trans (extract_append_high 0#8 op (by omega))).trans (extract_all 0#8)

@[simp] theorem highHalf_headerWord (op : BitVec 8) (imm : Half) : highHalf (headerWord op imm) = imm :=
  (extract_append_high imm (0#8 ++ op) (by omega)).trans (extract_all imm)

@[simp] theorem lowHalf_halvesWord (low high : Half) : lowHalf (halvesWord low high) = low :=
  (extract_append_low high low (by omega)).trans (extract_all low)

@[simp] theorem highHalf_halvesWord (low high : Half) : highHalf (halvesWord low high) = high :=
  (extract_append_high high low (by omega)).trans (extract_all high)

/-! ## Bytes -/

@[simp] theorem length_le16 (v : Half) : (le16 v).length = 2 := rfl

@[simp] theorem length_le32 (v : Word) : (le32 v).length = 4 := rfl

/-- The bytes of a u16 read back as it. -/
@[simp] theorem read16_le16 (v : Half) (rest : List Byte) : read16 (le16 v ++ rest) 0 = v :=
  (extract_join v 0 8 8).trans (extract_all v)

/-- The bytes of a u32 read back as it. -/
@[simp] theorem read32_le32 (v : Word) (rest : List Byte) : read32 (le32 v ++ rest) 0 = v := by
  have h1 : v.extractLsb' 8 8 ++ v.extractLsb' 0 8 = v.extractLsb' 0 16 := extract_join v 0 8 8
  have h2 : v.extractLsb' 16 8 ++ v.extractLsb' 0 16 = v.extractLsb' 0 24 := extract_join v 0 16 8
  have h3 : v.extractLsb' 24 8 ++ v.extractLsb' 0 24 = v.extractLsb' 0 32 := extract_join v 0 24 8
  show v.extractLsb' 24 8 ++ (v.extractLsb' 16 8 ++ (v.extractLsb' 8 8 ++ v.extractLsb' 0 8)) = v
  rw [h1]
  exact ((congrArg (v.extractLsb' 24 8 ++ ·) h2).trans h3).trans (extract_all v)

/-- A read at or past the end of a first part is a read of the second part. -/
theorem read16_append {xs ys : List Byte} {k : Nat} (h : xs.length ≤ k) :
    read16 (xs ++ ys) k = read16 ys (k - xs.length) := by
  unfold read16
  rw [List.getD_append_right _ _ _ _ h, List.getD_append_right _ _ _ _ (by omega),
    show k + 1 - xs.length = k - xs.length + 1 by omega]

/-- A read at or past the end of a first part is a read of the second part. -/
theorem read32_append {xs ys : List Byte} {k : Nat} (h : xs.length ≤ k) :
    read32 (xs ++ ys) k = read32 ys (k - xs.length) := by
  unfold read32
  rw [List.getD_append_right _ _ _ _ h, List.getD_append_right _ _ _ _ (by omega),
    List.getD_append_right _ _ _ _ (by omega), List.getD_append_right _ _ _ _ (by omega),
    show k + 1 - xs.length = k - xs.length + 1 by omega, show k + 2 - xs.length = k - xs.length + 2 by omega,
    show k + 3 - xs.length = k - xs.length + 3 by omega]

/-! ## Text -/

/-- The words of a text (rule R112). -/
@[simp] theorem length_packText (text : List Byte) : (packText text).length = textWords text.length := by
  induction text using packText.induct <;> simp_all [packText, textWords]
  omega

/-- A packed word's bytes are the bytes it was packed from. -/
theorem le32_ofBytes32 (b0 b1 b2 b3 : Byte) : le32 (ofBytes32 b0 b1 b2 b3) = [b0, b1, b2, b3] := by
  have h0 : (ofBytes32 b0 b1 b2 b3).extractLsb' 0 8 = b0 :=
    (extract_append_low b3 (b2 ++ (b1 ++ b0)) (by omega)).trans
      ((extract_append_low b2 (b1 ++ b0) (by omega)).trans
        ((extract_append_low b1 b0 (by omega)).trans (extract_all b0)))
  have h1 : (ofBytes32 b0 b1 b2 b3).extractLsb' 8 8 = b1 :=
    (extract_append_low b3 (b2 ++ (b1 ++ b0)) (by omega)).trans
      ((extract_append_low b2 (b1 ++ b0) (by omega)).trans
        ((extract_append_high b1 b0 (by omega)).trans (extract_all b1)))
  have h2 : (ofBytes32 b0 b1 b2 b3).extractLsb' 16 8 = b2 :=
    (extract_append_low b3 (b2 ++ (b1 ++ b0)) (by omega)).trans
      ((extract_append_high b2 (b1 ++ b0) (by omega)).trans (extract_all b2))
  have h3 : (ofBytes32 b0 b1 b2 b3).extractLsb' 24 8 = b3 :=
    (extract_append_high b3 (b2 ++ (b1 ++ b0)) (by omega)).trans (extract_all b3)
  rw [le32, h0, h1, h2, h3]

/-- Packed text unpacks to itself (rule R114). -/
theorem unpackText_packText (text : List Byte) : unpackText text.length (packText text) = text := by
  induction text using packText.induct <;> simp_all [packText, unpackText, le32_ofBytes32]

/-! ## Frames -/

/-- The payload-size field of a frame (rule R140). -/
theorem read16_frameImage (magic : Word) (type : Half) (pl : List Byte) :
    read16 (frameImage magic type pl) 4 = BitVec.ofNat 16 pl.length := by
  rw [frameImage, read16_append (by simp)]
  simp

end Sys2Proof
end

