-- ==== Sys2Proof/Laws/Memory.lean ====
section
/-! SUPPORT. What the byte memories and the element operations do: reads after writes, the canonical form, and for each
operation over elements one lemma that says what an answer means. -/

namespace Sys2Proof.Machine

/-! ## Cells laid out from an address -/

@[simp] theorem cellsFrom_nil (a : Nat) : cellsFrom a [] = [] := rfl

@[simp] theorem cellsFrom_cons (a : Nat) (b : Byte) (bs : List Byte) :
    cellsFrom a (b :: bs) = (a, b) :: cellsFrom (a + 1) bs := rfl

theorem mem_cellsFrom_bounds {a : Nat} {bs : List Byte} {c : Host.Cell} (h : c ∈ cellsFrom a bs) :
    a ≤ c.1 ∧ c.1 < a + bs.length := by
  induction bs generalizing a with
  | nil => simp at h
  | cons b bs ih =>
    rcases List.mem_cons.1 h with rfl | h
    · simp
    · have := ih h
      simp only [List.length_cons]
      omega

theorem cellsFrom_wf (a : Nat) (bs : List Byte) : Memory.wf (cellsFrom a bs) := by
  induction bs generalizing a with
  | nil => exact List.Pairwise.nil
  | cons b bs ih =>
    refine List.Pairwise.cons (fun c hc => ?_) (ih (a + 1))
    have := mem_cellsFrom_bounds hc
    simp only
    omega

theorem find_cellsFrom_of_not (a : Nat) (bs : List Byte) {x : Nat} (h : x < a ∨ a + bs.length ≤ x) :
    (cellsFrom a bs).find? (fun c => c.1 == x) = none := by
  rw [List.find?_eq_none]
  intro c hc hx
  have := mem_cellsFrom_bounds hc
  have : c.1 = x := by simpa using hx
  omega

theorem find_cellsFrom (a : Nat) (bs : List Byte) {i : Nat} (h : i < bs.length) :
    (cellsFrom a bs).find? (fun c => c.1 == a + i) = some (a + i, bs[i]) := by
  induction bs generalizing a i with
  | nil => simp at h
  | cons b bs ih =>
    cases i with
    | zero => simp
    | succ i =>
      have hi : i < bs.length := by simpa using h
      have h1 : (a == a + (i + 1)) = false := by simp
      rw [cellsFrom_cons, List.find?_cons, h1]
      have := ih (a + 1) hi
      rw [show a + 1 + i = a + (i + 1) by omega] at this
      simpa using this

/-! ## A block write -/

/-- A block write keeps the canonical form. -/
theorem Memory.write_wf {m : Memory} (h : m.wf) (a : Nat) (bs : List Byte) : (m.write a bs).wf := by
  unfold Memory.write Memory.wf
  rw [List.pairwise_append, List.pairwise_append]
  refine ⟨h.filter _, ⟨cellsFrom_wf a bs, h.filter _, ?_⟩, ?_⟩
  · intro x hx y hy
    have := mem_cellsFrom_bounds hx
    have hy := (List.mem_filter.1 hy).2
    simp only [decide_eq_true_eq] at hy
    omega
  · intro x hx y hy
    have hx := (List.mem_filter.1 hx).2
    simp only [decide_eq_true_eq] at hx
    rcases List.mem_append.1 hy with hy | hy
    · have := mem_cellsFrom_bounds hy
      omega
    · have hy := (List.mem_filter.1 hy).2
      simp only [decide_eq_true_eq] at hy
      omega

/-- A block write lists no byte past an end that bounds the memory and the block. -/
theorem Memory.write_bounded {m : Memory} {a n : Nat} {bs : List Byte} (h : ∀ c ∈ m, c.1 < n)
    (hb : a + bs.length ≤ n) : ∀ c ∈ m.write a bs, c.1 < n := by
  intro c hc
  unfold Memory.write at hc
  rcases List.mem_append.1 hc with hc | hc
  · exact h c (List.mem_filter.1 hc).1
  · rcases List.mem_append.1 hc with hc | hc
    · have := mem_cellsFrom_bounds hc
      omega
    · exact h c (List.mem_filter.1 hc).1

theorem find_filter_of_imp {α : Type} (m : List α) (p q : α → Bool) (h : ∀ c ∈ m, q c = true → p c = true) :
    (m.filter p).find? q = m.find? q := by
  induction m with
  | nil => rfl
  | cons c m ih =>
    have ih := ih (fun d hd => h d (List.mem_cons_of_mem _ hd))
    cases hp : p c with
    | true => simp [hp, List.find?_cons, ih]
    | false =>
      have hq : q c = false := by
        cases hq : q c with
        | false => rfl
        | true => rw [h c List.mem_cons_self hq] at hp; cases hp
      simp [hp, hq, ih]

theorem find_filter_none {m : Memory} {p : Host.Cell → Bool} {x : Nat} (h : ∀ c ∈ m, p c = true → c.1 ≠ x) :
    (m.filter p).find? (fun c => c.1 == x) = none := by
  rw [List.find?_eq_none]
  intro c hc hx
  have hc := List.mem_filter.1 hc
  exact h c hc.1 hc.2 (by simpa using hx)

/-- A byte outside a written block reads as before. -/
theorem Memory.byteAt_write_of_not (m : Memory) (free : Nat → Byte) {a x : Nat} {bs : List Byte}
    (h : x < a ∨ a + bs.length ≤ x) : (m.write a bs).byteAt free x = m.byteAt free x := by
  unfold Memory.byteAt Memory.write
  rw [List.find?_append, List.find?_append, find_cellsFrom_of_not a bs h, Option.none_or]
  rcases h with h | h
  · rw [find_filter_of_imp m (fun c => decide (c.1 < a)) _ (fun c _ hc => ?_),
      find_filter_none (p := fun c => decide (a + bs.length ≤ c.1)) (fun c _ hc => ?_), Option.or_none]
    · simp only [decide_eq_true_eq] at hc; omega
    · have : c.1 = x := by simpa using hc
      simp only [decide_eq_true_eq]; omega
  · rw [find_filter_none (p := fun c => decide (c.1 < a)) (fun c _ hc => ?_), Option.none_or,
      find_filter_of_imp m (fun c => decide (a + bs.length ≤ c.1)) _ (fun c _ hc => ?_)]
    · have : c.1 = x := by simpa using hc
      simp only [decide_eq_true_eq]; omega
    · simp only [decide_eq_true_eq] at hc; omega

/-- A byte of a written block reads as it was written. -/
theorem Memory.byteAt_write (m : Memory) (free : Nat → Byte) (a : Nat) {bs : List Byte} {i : Nat}
    (h : i < bs.length) : (m.write a bs).byteAt free (a + i) = bs[i] := by
  unfold Memory.byteAt Memory.write
  rw [List.find?_append, List.find?_append, find_cellsFrom a bs h,
    find_filter_none (p := fun c => decide (c.1 < a)) (fun c _ hc => ?_)]
  · rfl
  · simp only [decide_eq_true_eq] at hc; omega

/-! ## Bytes of a space -/

theorem byteAt_congr {s t : State} {sp : Space} (h : t.mem sp = s.mem sp) (hr : t.resets = s.resets) (a : Nat) :
    t.byteAt sp a = s.byteAt sp a := by
  simp [State.byteAt, h, hr]

@[simp] theorem State.mem_buf (s : State) : s.mem .buf = s.buf := rfl

@[simp] theorem State.mem_scr (s : State) : s.mem .scr = s.scr := rfl

/-- What `memRead` answers, it read inside the space. -/
theorem memRead_spec {s : State} {sp : Space} {a n : Nat} {bs : List Byte} (h : memRead s sp a n = .ok bs) :
    a + n ≤ capacityOf s.cfg sp ∧ bs = (List.range n).map fun i => s.byteAt sp (a + i) := by
  unfold memRead at h
  split at h
  · exact ⟨by assumption, by cases h; rfl⟩
  · cases h

/-- What `memWrite` answers: the block written inside the space, everything else kept. -/
theorem memWrite_spec {s t : State} {sp : Space} {a : Nat} {bs : List Byte} (h : memWrite s sp a bs = .ok t) :
    a + bs.length ≤ capacityOf s.cfg sp ∧ t = s.withMem sp ((s.mem sp).write a bs) := by
  unfold memWrite at h
  split at h
  · exact ⟨by assumption, by cases h; rfl⟩
  · cases h

/-! ## Elements -/

@[simp] theorem length_bytesOfHalves (vs : List Half) : (bytesOfHalves vs).length = 2 * vs.length := by
  induction vs with
  | nil => rfl
  | cons v vs ih =>
    have : bytesOfHalves (v :: vs) = le16 v ++ bytesOfHalves vs := rfl
    rw [this, List.length_append, ih]
    simp [le16]
    omega

theorem ofBytes16_le16 (v : Half) : ofBytes16 (v.extractLsb' 0 8) (v.extractLsb' 8 8) = v := by
  unfold ofBytes16
  ext i hi
  simp only [BitVec.getElem_append, BitVec.getElem_extractLsb']
  split
  · simp [BitVec.getLsbD_eq_getElem hi]
  · rw [show 8 + (i - 8) = i by omega, BitVec.getLsbD_eq_getElem hi]

theorem bytesOfHalves_low (vs : List Half) {i : Nat} (h : i < vs.length) :
    (bytesOfHalves vs)[2 * i]'(by simp; omega) = vs[i].extractLsb' 0 8 := by
  induction vs generalizing i with
  | nil => simp at h
  | cons v vs ih =>
    cases i with
    | zero => rfl
    | succ i =>
      have hi : i < vs.length := by simpa using h
      have : (bytesOfHalves (v :: vs)) = v.extractLsb' 0 8 :: v.extractLsb' 8 8 :: bytesOfHalves vs := rfl
      simp only [this, show 2 * (i + 1) = 2 * i + 1 + 1 by omega, List.getElem_cons_succ]
      exact ih hi

theorem bytesOfHalves_high (vs : List Half) {i : Nat} (h : i < vs.length) :
    (bytesOfHalves vs)[2 * i + 1]'(by simp; omega) = vs[i].extractLsb' 8 8 := by
  induction vs generalizing i with
  | nil => simp at h
  | cons v vs ih =>
    cases i with
    | zero => rfl
    | succ i =>
      have hi : i < vs.length := by simpa using h
      have : (bytesOfHalves (v :: vs)) = v.extractLsb' 0 8 :: v.extractLsb' 8 8 :: bytesOfHalves vs := rfl
      simp only [this, show 2 * (i + 1) + 1 = 2 * i + 1 + 1 + 1 by omega, List.getElem_cons_succ]
      exact ih hi

/-- An element written is read back; the other elements of memory keep their bytes. -/
theorem byteAt_write_halves (m : Memory) (free : Nat → Byte) (a : Nat) (vs : List Half) {i : Nat}
    (h : i < vs.length) :
    ofBytes16 ((m.write a (bytesOfHalves vs)).byteAt free (a + 2 * i))
      ((m.write a (bytesOfHalves vs)).byteAt free (a + 2 * i + 1)) = vs[i] := by
  rw [Memory.byteAt_write m free a (bs := bytesOfHalves vs) (i := 2 * i) (by simp; omega),
    show a + 2 * i + 1 = a + (2 * i + 1) by omega,
    Memory.byteAt_write m free a (bs := bytesOfHalves vs) (i := 2 * i + 1) (by simp; omega),
    bytesOfHalves_low vs h, bytesOfHalves_high vs h, ofBytes16_le16]

/-- An access to elements passes its checks iff they lie in the buffer at an even address. -/
theorem elementCheck_eq_none {b : SampleBuf} {len i n : Nat} :
    elementCheck b len i n = none ↔ i + n ≤ len ∧ elementAddr b i % 2 = 0 := by
  unfold elementCheck
  split
  · simp; omega
  · split
    · simp_all
    · simp only [true_iff]; omega

/-- When a read of an element answers, and what it answers. -/
theorem readElement_eq_ok {s : State} {b : SampleBuf} {i : Nat} (h1 : i < b.len.toNat)
    (h2 : elementAddr b i % 2 = 0) (h3 : elementAddr b i + 2 ≤ s.cfg.bufCapacity) :
    readElement s b i = .ok (elementAt s b i) := by
  unfold readElement
  rw [elementCheck_eq_none.2 ⟨h1, h2⟩]
  simp only [memRead, capacityOf, h3, if_true]
  rfl

/-- What a read of an element answers is its value. -/
theorem readElement_spec {s : State} {b : SampleBuf} {i : Nat} {v : Half} (h : readElement s b i = .ok v) :
    i < b.len.toNat ∧ elementAddr b i % 2 = 0 ∧ elementAddr b i + 2 ≤ s.cfg.bufCapacity
      ∧ v = elementAt s b i := by
  unfold readElement at h
  cases hc : elementCheck b b.len.toNat i 1 with
  | some f => rw [hc] at h; cases h
  | none =>
    have h12 := elementCheck_eq_none.1 hc
    rw [hc] at h
    simp only at h
    cases hm : memRead s .buf (elementAddr b i) 2 with
    | error f => rw [hm] at h; cases h
    | ok bs =>
      have hs := memRead_spec hm
      refine ⟨h12.1, h12.2, hs.1, ?_⟩
      rw [hm] at h
      cases h
      rw [hs.2]
      rfl

/-- When a read of `n` elements answers, and what it answers. -/
theorem readElements_eq_ok {s : State} {b : SampleBuf} {i n : Nat} (h1 : i + n ≤ b.len.toNat)
    (h2 : b.base.toNat % 2 = 0) (h3 : elementAddr b i + 2 * n ≤ s.cfg.bufCapacity) :
    readElements s b i n = .ok ((List.range n).map fun j => elementAt s b (i + j)) := by
  induction n generalizing i with
  | zero => rfl
  | succ n ih =>
    have ha : elementAddr b (i + 1) = elementAddr b i + 2 := by unfold elementAddr; omega
    rw [readElements, readElement_eq_ok (by omega) (by unfold elementAddr; omega) (by omega)]
    simp only
    rw [ih (i := i + 1) (by omega) (by omega)]
    simp only [List.range_succ_eq_map, List.map_cons, List.map_map, Nat.add_zero]
    congr 2
    apply List.map_congr_left
    intro j _
    simp only [Function.comp, Nat.succ_eq_add_one]
    congr 1
    omega

/-- When a write of elements answers, and what it answers. -/
theorem writeElements_eq_ok {s : State} {b : SampleBuf} {len i : Nat} {vs : List Half}
    (h1 : i + vs.length ≤ len) (h2 : b.base.toNat % 2 = 0)
    (h3 : elementAddr b i + 2 * vs.length ≤ s.cfg.bufCapacity) :
    writeElements s b len i vs
      = .ok (if vs = [] then s
          else { s with buf := Memory.write s.buf (elementAddr b i) (bytesOfHalves vs) }) := by
  unfold writeElements
  split
  · rfl
  · rw [elementCheck_eq_none.2 ⟨h1, by unfold elementAddr; omega⟩]
    simp only [memWrite, capacityOf, length_bytesOfHalves, h3, if_true]
    rfl

/-- What a write of elements answers: the elements written inside the buffer and inside the space. -/
theorem writeElements_spec {s t : State} {b : SampleBuf} {len i : Nat} {vs : List Half}
    (h : writeElements s b len i vs = .ok t) :
    (vs = [] ∧ t = s)
      ∨ (vs ≠ [] ∧ i + vs.length ≤ len ∧ elementAddr b i % 2 = 0
        ∧ elementAddr b i + 2 * vs.length ≤ s.cfg.bufCapacity
        ∧ t = { s with buf := Memory.write s.buf (elementAddr b i) (bytesOfHalves vs) }) := by
  unfold writeElements at h
  split at h
  · exact .inl ⟨by assumption, by cases h; rfl⟩
  · rename_i hne
    cases hc : elementCheck b len i vs.length with
    | some f => rw [hc] at h; cases h
    | none =>
      have h12 := elementCheck_eq_none.1 hc
      rw [hc] at h
      have hs := memWrite_spec h
      exact .inr ⟨hne, h12.1, h12.2, by simpa [capacityOf] using hs.1, hs.2⟩

/-- When a remainder of a cursor answers, and what it answers. -/
theorem cursorMod_spec {i n : Nat} {w : Word} (h : cursorMod i n = .ok w) :
    0 < n ∧ w = BitVec.ofNat 32 (i % n) := by
  unfold cursorMod at h
  split at h
  · cases h
  · exact ⟨by omega, by cases h; rfl⟩

end Sys2Proof.Machine
end

