-- ==== Sys2Proof/Laws/State.lean ====
section
/-! SUPPORT. One lemma for each field under each named update of the state, true by unfolding the update once, so that no
later proof unfolds a record update. -/

namespace Sys2Proof.Machine

/-! ### `State.respond` -/

@[simp] theorem State.respond_cfg (s : State) (st : Status) (ws : List Word) :
    (s.respond st ws).cfg = s.cfg := rfl
@[simp] theorem State.respond_mode (s : State) (st : Status) (ws : List Word) :
    (s.respond st ws).mode = s.mode := rfl
@[simp] theorem State.respond_calFail (s : State) (st : Status) (ws : List Word) :
    (s.respond st ws).calFail = s.calFail := rfl
@[simp] theorem State.respond_txEn (s : State) (st : Status) (ws : List Word) :
    (s.respond st ws).txEn = s.txEn := rfl
@[simp] theorem State.respond_tmEn (s : State) (st : Status) (ws : List Word) :
    (s.respond st ws).tmEn = s.tmEn := rfl
@[simp] theorem State.respond_odEn (s : State) (st : Status) (ws : List Word) :
    (s.respond st ws).odEn = s.odEn := rfl
@[simp] theorem State.respond_odOutEn (s : State) (st : Status) (ws : List Word) :
    (s.respond st ws).odOutEn = s.odOutEn := rfl
@[simp] theorem State.respond_smpEn (s : State) (st : Status) (ws : List Word) :
    (s.respond st ws).smpEn = s.smpEn := rfl
@[simp] theorem State.respond_req (s : State) (st : Status) (ws : List Word) :
    (s.respond st ws).req = s.req := rfl
@[simp] theorem State.respond_prof (s : State) (st : Status) (ws : List Word) :
    (s.respond st ws).prof = s.prof := rfl
@[simp] theorem State.respond_tmDesc (s : State) (st : Status) (ws : List Word) :
    (s.respond st ws).tmDesc = s.tmDesc := rfl
@[simp] theorem State.respond_odDesc (s : State) (st : Status) (ws : List Word) :
    (s.respond st ws).odDesc = s.odDesc := rfl
@[simp] theorem State.respond_smpDesc (s : State) (st : Status) (ws : List Word) :
    (s.respond st ws).smpDesc = s.smpDesc := rfl
@[simp] theorem State.respond_outBuf (s : State) (st : Status) (ws : List Word) :
    (s.respond st ws).outBuf = s.outBuf := rfl
@[simp] theorem State.respond_inBuf (s : State) (st : Status) (ws : List Word) :
    (s.respond st ws).inBuf = s.inBuf := rfl
@[simp] theorem State.respond_seq (s : State) (st : Status) (ws : List Word) :
    (s.respond st ws).seq = s.seq := rfl
@[simp] theorem State.respond_ts (s : State) (st : Status) (ws : List Word) : (s.respond st ws).ts = s.ts := rfl
@[simp] theorem State.respond_parity (s : State) (st : Status) (ws : List Word) :
    (s.respond st ws).parity = s.parity := rfl
@[simp] theorem State.respond_lastEmitted (s : State) (st : Status) (ws : List Word) :
    (s.respond st ws).lastEmitted = s.lastEmitted := rfl
@[simp] theorem State.respond_irq (s : State) (st : Status) (ws : List Word) :
    (s.respond st ws).irq = s.irq := rfl
@[simp] theorem State.respond_odIdx (s : State) (st : Status) (ws : List Word) :
    (s.respond st ws).odIdx = s.odIdx := rfl
@[simp] theorem State.respond_smpIdx (s : State) (st : Status) (ws : List Word) :
    (s.respond st ws).smpIdx = s.smpIdx := rfl
@[simp] theorem State.respond_tmPhase (s : State) (st : Status) (ws : List Word) :
    (s.respond st ws).tmPhase = s.tmPhase := rfl
@[simp] theorem State.respond_cycle (s : State) (st : Status) (ws : List Word) :
    (s.respond st ws).cycle = s.cycle := rfl
@[simp] theorem State.respond_odLast (s : State) (st : Status) (ws : List Word) :
    (s.respond st ws).odLast = s.odLast := rfl
@[simp] theorem State.respond_buf (s : State) (st : Status) (ws : List Word) :
    (s.respond st ws).buf = s.buf := rfl
@[simp] theorem State.respond_scr (s : State) (st : Status) (ws : List Word) :
    (s.respond st ws).scr = s.scr := rfl
@[simp] theorem State.respond_history (s : State) (st : Status) (ws : List Word) :
    (s.respond st ws).history = s.history := rfl
@[simp] theorem State.respond_resp (s : State) (st : Status) (ws : List Word) :
    (s.respond st ws).resp = s.resp ++ [responseWords st ws] := rfl
@[simp] theorem State.respond_cmd (s : State) (st : Status) (ws : List Word) :
    (s.respond st ws).cmd = s.cmd := rfl
@[simp] theorem State.respond_frameReq (s : State) (st : Status) (ws : List Word) :
    (s.respond st ws).frameReq = s.frameReq := rfl
@[simp] theorem State.respond_turns (s : State) (st : Status) (ws : List Word) :
    (s.respond st ws).turns = s.turns := rfl
@[simp] theorem State.respond_draws (s : State) (st : Status) (ws : List Word) :
    (s.respond st ws).draws = s.draws := rfl
@[simp] theorem State.respond_resets (s : State) (st : Status) (ws : List Word) :
    (s.respond st ws).resets = s.resets := rfl

/-! ### `State.raise` -/

@[simp] theorem State.raise_cfg (s : State) (st : Status) : (s.raise st).cfg = s.cfg := rfl
@[simp] theorem State.raise_mode (s : State) (st : Status) : (s.raise st).mode = s.mode := rfl
@[simp] theorem State.raise_calFail (s : State) (st : Status) : (s.raise st).calFail = s.calFail := rfl
@[simp] theorem State.raise_txEn (s : State) (st : Status) : (s.raise st).txEn = s.txEn := rfl
@[simp] theorem State.raise_tmEn (s : State) (st : Status) : (s.raise st).tmEn = s.tmEn := rfl
@[simp] theorem State.raise_odEn (s : State) (st : Status) : (s.raise st).odEn = s.odEn := rfl
@[simp] theorem State.raise_odOutEn (s : State) (st : Status) : (s.raise st).odOutEn = s.odOutEn := rfl
@[simp] theorem State.raise_smpEn (s : State) (st : Status) : (s.raise st).smpEn = s.smpEn := rfl
@[simp] theorem State.raise_req (s : State) (st : Status) : (s.raise st).req = s.req := rfl
@[simp] theorem State.raise_prof (s : State) (st : Status) : (s.raise st).prof = s.prof := rfl
@[simp] theorem State.raise_tmDesc (s : State) (st : Status) : (s.raise st).tmDesc = s.tmDesc := rfl
@[simp] theorem State.raise_odDesc (s : State) (st : Status) : (s.raise st).odDesc = s.odDesc := rfl
@[simp] theorem State.raise_smpDesc (s : State) (st : Status) : (s.raise st).smpDesc = s.smpDesc := rfl
@[simp] theorem State.raise_outBuf (s : State) (st : Status) : (s.raise st).outBuf = s.outBuf := rfl
@[simp] theorem State.raise_inBuf (s : State) (st : Status) : (s.raise st).inBuf = s.inBuf := rfl
@[simp] theorem State.raise_seq (s : State) (st : Status) : (s.raise st).seq = s.seq := rfl
@[simp] theorem State.raise_ts (s : State) (st : Status) : (s.raise st).ts = s.ts := rfl
@[simp] theorem State.raise_parity (s : State) (st : Status) : (s.raise st).parity = s.parity := rfl
@[simp] theorem State.raise_lastEmitted (s : State) (st : Status) :
    (s.raise st).lastEmitted = s.lastEmitted := rfl
@[simp] theorem State.raise_irq (s : State) (st : Status) : (s.raise st).irq = s.irq := rfl
@[simp] theorem State.raise_odIdx (s : State) (st : Status) : (s.raise st).odIdx = s.odIdx := rfl
@[simp] theorem State.raise_smpIdx (s : State) (st : Status) : (s.raise st).smpIdx = s.smpIdx := rfl
@[simp] theorem State.raise_tmPhase (s : State) (st : Status) : (s.raise st).tmPhase = s.tmPhase := rfl
@[simp] theorem State.raise_cycle (s : State) (st : Status) : (s.raise st).cycle = s.cycle := rfl
@[simp] theorem State.raise_odLast (s : State) (st : Status) : (s.raise st).odLast = s.odLast := rfl
@[simp] theorem State.raise_buf (s : State) (st : Status) : (s.raise st).buf = s.buf := rfl
@[simp] theorem State.raise_scr (s : State) (st : Status) : (s.raise st).scr = s.scr := rfl
@[simp] theorem State.raise_history (s : State) (st : Status) : (s.raise st).history = s.history := rfl
@[simp] theorem State.raise_resp (s : State) (st : Status) :
    (s.raise st).resp = s.resp ++ [responseWords st []] := rfl
@[simp] theorem State.raise_cmd (s : State) (st : Status) : (s.raise st).cmd = s.cmd := rfl
@[simp] theorem State.raise_frameReq (s : State) (st : Status) : (s.raise st).frameReq = s.frameReq := rfl
@[simp] theorem State.raise_turns (s : State) (st : Status) : (s.raise st).turns = s.turns := rfl
@[simp] theorem State.raise_draws (s : State) (st : Status) : (s.raise st).draws = s.draws := rfl
@[simp] theorem State.raise_resets (s : State) (st : Status) : (s.raise st).resets = s.resets := rfl

/-! ### `State.drawn` -/

@[simp] theorem State.drawn_cfg (s : State) : s.drawn.cfg = s.cfg := rfl
@[simp] theorem State.drawn_mode (s : State) : s.drawn.mode = s.mode := rfl
@[simp] theorem State.drawn_calFail (s : State) : s.drawn.calFail = s.calFail := rfl
@[simp] theorem State.drawn_txEn (s : State) : s.drawn.txEn = s.txEn := rfl
@[simp] theorem State.drawn_tmEn (s : State) : s.drawn.tmEn = s.tmEn := rfl
@[simp] theorem State.drawn_odEn (s : State) : s.drawn.odEn = s.odEn := rfl
@[simp] theorem State.drawn_odOutEn (s : State) : s.drawn.odOutEn = s.odOutEn := rfl
@[simp] theorem State.drawn_smpEn (s : State) : s.drawn.smpEn = s.smpEn := rfl
@[simp] theorem State.drawn_req (s : State) : s.drawn.req = s.req := rfl
@[simp] theorem State.drawn_prof (s : State) : s.drawn.prof = s.prof := rfl
@[simp] theorem State.drawn_tmDesc (s : State) : s.drawn.tmDesc = s.tmDesc := rfl
@[simp] theorem State.drawn_odDesc (s : State) : s.drawn.odDesc = s.odDesc := rfl
@[simp] theorem State.drawn_smpDesc (s : State) : s.drawn.smpDesc = s.smpDesc := rfl
@[simp] theorem State.drawn_outBuf (s : State) : s.drawn.outBuf = s.outBuf := rfl
@[simp] theorem State.drawn_inBuf (s : State) : s.drawn.inBuf = s.inBuf := rfl
@[simp] theorem State.drawn_seq (s : State) : s.drawn.seq = s.seq := rfl
@[simp] theorem State.drawn_ts (s : State) : s.drawn.ts = s.ts := rfl
@[simp] theorem State.drawn_parity (s : State) : s.drawn.parity = s.parity := rfl
@[simp] theorem State.drawn_lastEmitted (s : State) : s.drawn.lastEmitted = s.lastEmitted := rfl
@[simp] theorem State.drawn_irq (s : State) : s.drawn.irq = s.irq := rfl
@[simp] theorem State.drawn_odIdx (s : State) : s.drawn.odIdx = s.odIdx := rfl
@[simp] theorem State.drawn_smpIdx (s : State) : s.drawn.smpIdx = s.smpIdx := rfl
@[simp] theorem State.drawn_tmPhase (s : State) : s.drawn.tmPhase = s.tmPhase := rfl
@[simp] theorem State.drawn_cycle (s : State) : s.drawn.cycle = s.cycle := rfl
@[simp] theorem State.drawn_odLast (s : State) : s.drawn.odLast = s.odLast := rfl
@[simp] theorem State.drawn_buf (s : State) : s.drawn.buf = s.buf := rfl
@[simp] theorem State.drawn_scr (s : State) : s.drawn.scr = s.scr := rfl
@[simp] theorem State.drawn_history (s : State) : s.drawn.history = s.history := rfl
@[simp] theorem State.drawn_resp (s : State) : s.drawn.resp = s.resp := rfl
@[simp] theorem State.drawn_cmd (s : State) : s.drawn.cmd = s.cmd := rfl
@[simp] theorem State.drawn_frameReq (s : State) : s.drawn.frameReq = s.frameReq := rfl
@[simp] theorem State.drawn_turns (s : State) : s.drawn.turns = s.turns := rfl
@[simp] theorem State.drawn_draws (s : State) : s.drawn.draws = s.draws + 1 := rfl
@[simp] theorem State.drawn_resets (s : State) : s.drawn.resets = s.resets := rfl

/-! ### `State.takeInterrupt` -/

@[simp] theorem State.takeInterrupt_cfg (s : State) (t : Word) : (s.takeInterrupt t).cfg = s.cfg := rfl
@[simp] theorem State.takeInterrupt_mode (s : State) (t : Word) : (s.takeInterrupt t).mode = s.mode := rfl
@[simp] theorem State.takeInterrupt_calFail (s : State) (t : Word) :
    (s.takeInterrupt t).calFail = s.calFail := rfl
@[simp] theorem State.takeInterrupt_txEn (s : State) (t : Word) : (s.takeInterrupt t).txEn = s.txEn := rfl
@[simp] theorem State.takeInterrupt_tmEn (s : State) (t : Word) : (s.takeInterrupt t).tmEn = s.tmEn := rfl
@[simp] theorem State.takeInterrupt_odEn (s : State) (t : Word) : (s.takeInterrupt t).odEn = s.odEn := rfl
@[simp] theorem State.takeInterrupt_odOutEn (s : State) (t : Word) :
    (s.takeInterrupt t).odOutEn = s.odOutEn := rfl
@[simp] theorem State.takeInterrupt_smpEn (s : State) (t : Word) : (s.takeInterrupt t).smpEn = s.smpEn := rfl
@[simp] theorem State.takeInterrupt_req (s : State) (t : Word) : (s.takeInterrupt t).req = s.req := rfl
@[simp] theorem State.takeInterrupt_prof (s : State) (t : Word) : (s.takeInterrupt t).prof = s.prof := rfl
@[simp] theorem State.takeInterrupt_tmDesc (s : State) (t : Word) : (s.takeInterrupt t).tmDesc = s.tmDesc := rfl
@[simp] theorem State.takeInterrupt_odDesc (s : State) (t : Word) : (s.takeInterrupt t).odDesc = s.odDesc := rfl
@[simp] theorem State.takeInterrupt_smpDesc (s : State) (t : Word) :
    (s.takeInterrupt t).smpDesc = s.smpDesc := rfl
@[simp] theorem State.takeInterrupt_outBuf (s : State) (t : Word) : (s.takeInterrupt t).outBuf = s.outBuf := rfl
@[simp] theorem State.takeInterrupt_inBuf (s : State) (t : Word) : (s.takeInterrupt t).inBuf = s.inBuf := rfl
@[simp] theorem State.takeInterrupt_seq (s : State) (t : Word) : (s.takeInterrupt t).seq = s.seq + 1 := rfl
@[simp] theorem State.takeInterrupt_ts (s : State) (t : Word) : (s.takeInterrupt t).ts = t := rfl
@[simp] theorem State.takeInterrupt_parity (s : State) (t : Word) :
    (s.takeInterrupt t).parity = (s.txEn && (s.seq + 1).getLsbD 0) := rfl
@[simp] theorem State.takeInterrupt_lastEmitted (s : State) (t : Word) :
    (s.takeInterrupt t).lastEmitted = s.lastEmitted := rfl
@[simp] theorem State.takeInterrupt_irq (s : State) (t : Word) : (s.takeInterrupt t).irq = false := rfl
@[simp] theorem State.takeInterrupt_odIdx (s : State) (t : Word) : (s.takeInterrupt t).odIdx = s.odIdx := rfl
@[simp] theorem State.takeInterrupt_smpIdx (s : State) (t : Word) : (s.takeInterrupt t).smpIdx = s.smpIdx := rfl
@[simp] theorem State.takeInterrupt_tmPhase (s : State) (t : Word) :
    (s.takeInterrupt t).tmPhase = s.tmPhase := rfl
@[simp] theorem State.takeInterrupt_cycle (s : State) (t : Word) : (s.takeInterrupt t).cycle = s.cycle := rfl
@[simp] theorem State.takeInterrupt_odLast (s : State) (t : Word) : (s.takeInterrupt t).odLast = s.odLast := rfl
@[simp] theorem State.takeInterrupt_buf (s : State) (t : Word) : (s.takeInterrupt t).buf = s.buf := rfl
@[simp] theorem State.takeInterrupt_scr (s : State) (t : Word) : (s.takeInterrupt t).scr = s.scr := rfl
@[simp] theorem State.takeInterrupt_history (s : State) (t : Word) :
    (s.takeInterrupt t).history = s.history ++ [Event.handler (s.seq + 1) t (s.txEn && (s.seq + 1).getLsbD 0)] := rfl
@[simp] theorem State.takeInterrupt_resp (s : State) (t : Word) : (s.takeInterrupt t).resp = s.resp := rfl
@[simp] theorem State.takeInterrupt_cmd (s : State) (t : Word) : (s.takeInterrupt t).cmd = s.cmd := rfl
@[simp] theorem State.takeInterrupt_frameReq (s : State) (t : Word) :
    (s.takeInterrupt t).frameReq = s.frameReq := rfl
@[simp] theorem State.takeInterrupt_turns (s : State) (t : Word) : (s.takeInterrupt t).turns = s.turns := rfl
@[simp] theorem State.takeInterrupt_draws (s : State) (t : Word) : (s.takeInterrupt t).draws = s.draws := rfl
@[simp] theorem State.takeInterrupt_resets (s : State) (t : Word) : (s.takeInterrupt t).resets = s.resets := rfl

/-! ### `State.release` -/

@[simp] theorem State.release_cfg (s : State) : s.release.cfg = s.cfg := rfl
@[simp] theorem State.release_mode (s : State) : s.release.mode = s.mode := rfl
@[simp] theorem State.release_calFail (s : State) : s.release.calFail = s.calFail := rfl
@[simp] theorem State.release_txEn (s : State) : s.release.txEn = s.txEn := rfl
@[simp] theorem State.release_tmEn (s : State) : s.release.tmEn = s.tmEn := rfl
@[simp] theorem State.release_odEn (s : State) : s.release.odEn = s.odEn := rfl
@[simp] theorem State.release_odOutEn (s : State) : s.release.odOutEn = s.odOutEn := rfl
@[simp] theorem State.release_smpEn (s : State) : s.release.smpEn = s.smpEn := rfl
@[simp] theorem State.release_req (s : State) : s.release.req = s.req := rfl
@[simp] theorem State.release_prof (s : State) : s.release.prof = s.prof := rfl
@[simp] theorem State.release_tmDesc (s : State) : s.release.tmDesc = s.tmDesc := rfl
@[simp] theorem State.release_odDesc (s : State) : s.release.odDesc = s.odDesc := rfl
@[simp] theorem State.release_smpDesc (s : State) : s.release.smpDesc = s.smpDesc := rfl
@[simp] theorem State.release_outBuf (s : State) : s.release.outBuf = releasedBuf s.outBuf := rfl
@[simp] theorem State.release_inBuf (s : State) : s.release.inBuf = releasedBuf s.inBuf := rfl
@[simp] theorem State.release_seq (s : State) : s.release.seq = s.seq := rfl
@[simp] theorem State.release_ts (s : State) : s.release.ts = s.ts := rfl
@[simp] theorem State.release_parity (s : State) : s.release.parity = s.parity := rfl
@[simp] theorem State.release_lastEmitted (s : State) : s.release.lastEmitted = s.lastEmitted := rfl
@[simp] theorem State.release_irq (s : State) : s.release.irq = s.irq := rfl
@[simp] theorem State.release_odIdx (s : State) : s.release.odIdx = s.odIdx := rfl
@[simp] theorem State.release_smpIdx (s : State) : s.release.smpIdx = s.smpIdx := rfl
@[simp] theorem State.release_tmPhase (s : State) : s.release.tmPhase = s.tmPhase := rfl
@[simp] theorem State.release_cycle (s : State) : s.release.cycle = s.cycle := rfl
@[simp] theorem State.release_odLast (s : State) : s.release.odLast = s.odLast := rfl
@[simp] theorem State.release_buf (s : State) : s.release.buf = s.buf := rfl
@[simp] theorem State.release_scr (s : State) : s.release.scr = s.scr := rfl
@[simp] theorem State.release_history (s : State) : s.release.history = s.history ++ releaseEvents s := rfl
@[simp] theorem State.release_resp (s : State) : s.release.resp = s.resp := rfl
@[simp] theorem State.release_cmd (s : State) : s.release.cmd = s.cmd := rfl
@[simp] theorem State.release_frameReq (s : State) : s.release.frameReq = s.frameReq := rfl
@[simp] theorem State.release_turns (s : State) : s.release.turns = s.turns := rfl
@[simp] theorem State.release_draws (s : State) : s.release.draws = s.draws := rfl
@[simp] theorem State.release_resets (s : State) : s.release.resets = s.resets := rfl

/-! ### `State.carve` -/

@[simp] theorem State.carve_cfg (s : State) (p : TimingProfile) : (s.carve p).cfg = s.cfg := rfl
@[simp] theorem State.carve_mode (s : State) (p : TimingProfile) : (s.carve p).mode = s.mode := rfl
@[simp] theorem State.carve_calFail (s : State) (p : TimingProfile) : (s.carve p).calFail = s.calFail := rfl
@[simp] theorem State.carve_txEn (s : State) (p : TimingProfile) : (s.carve p).txEn = s.txEn := rfl
@[simp] theorem State.carve_tmEn (s : State) (p : TimingProfile) : (s.carve p).tmEn = s.tmEn := rfl
@[simp] theorem State.carve_odEn (s : State) (p : TimingProfile) : (s.carve p).odEn = s.odEn := rfl
@[simp] theorem State.carve_odOutEn (s : State) (p : TimingProfile) : (s.carve p).odOutEn = s.odOutEn := rfl
@[simp] theorem State.carve_smpEn (s : State) (p : TimingProfile) : (s.carve p).smpEn = s.smpEn := rfl
@[simp] theorem State.carve_req (s : State) (p : TimingProfile) : (s.carve p).req = s.req := rfl
@[simp] theorem State.carve_prof (s : State) (p : TimingProfile) : (s.carve p).prof = s.prof := rfl
@[simp] theorem State.carve_tmDesc (s : State) (p : TimingProfile) : (s.carve p).tmDesc = s.tmDesc := rfl
@[simp] theorem State.carve_odDesc (s : State) (p : TimingProfile) : (s.carve p).odDesc = s.odDesc := rfl
@[simp] theorem State.carve_smpDesc (s : State) (p : TimingProfile) : (s.carve p).smpDesc = s.smpDesc := rfl
@[simp] theorem State.carve_outBuf (s : State) (p : TimingProfile) :
    (s.carve p).outBuf = ⟨0, heldLength p.outLen⟩ := rfl
@[simp] theorem State.carve_inBuf (s : State) (p : TimingProfile) :
    (s.carve p).inBuf = ⟨heldLength (2 * p.outLen), heldLength p.inLen⟩ := rfl
@[simp] theorem State.carve_seq (s : State) (p : TimingProfile) : (s.carve p).seq = s.seq := rfl
@[simp] theorem State.carve_ts (s : State) (p : TimingProfile) : (s.carve p).ts = s.ts := rfl
@[simp] theorem State.carve_parity (s : State) (p : TimingProfile) : (s.carve p).parity = s.parity := rfl
@[simp] theorem State.carve_lastEmitted (s : State) (p : TimingProfile) :
    (s.carve p).lastEmitted = s.lastEmitted := rfl
@[simp] theorem State.carve_irq (s : State) (p : TimingProfile) : (s.carve p).irq = s.irq := rfl
@[simp] theorem State.carve_odIdx (s : State) (p : TimingProfile) : (s.carve p).odIdx = s.odIdx := rfl
@[simp] theorem State.carve_smpIdx (s : State) (p : TimingProfile) : (s.carve p).smpIdx = s.smpIdx := rfl
@[simp] theorem State.carve_tmPhase (s : State) (p : TimingProfile) : (s.carve p).tmPhase = s.tmPhase := rfl
@[simp] theorem State.carve_cycle (s : State) (p : TimingProfile) : (s.carve p).cycle = s.cycle := rfl
@[simp] theorem State.carve_odLast (s : State) (p : TimingProfile) : (s.carve p).odLast = s.odLast := rfl
@[simp] theorem State.carve_buf (s : State) (p : TimingProfile) :
    (s.carve p).buf = Memory.write s.buf 0 ((List.range (bytesNeeded p)).map (Config.allocatedByte s.draws)) := rfl
@[simp] theorem State.carve_scr (s : State) (p : TimingProfile) : (s.carve p).scr = s.scr := rfl
@[simp] theorem State.carve_history (s : State) (p : TimingProfile) :
    (s.carve p).history = s.history ++ [Event.alloc .out 0 (heldLength p.outLen),
      Event.alloc .inp (heldLength (2 * p.outLen)) (heldLength p.inLen)] := rfl
@[simp] theorem State.carve_resp (s : State) (p : TimingProfile) : (s.carve p).resp = s.resp := rfl
@[simp] theorem State.carve_cmd (s : State) (p : TimingProfile) : (s.carve p).cmd = s.cmd := rfl
@[simp] theorem State.carve_frameReq (s : State) (p : TimingProfile) : (s.carve p).frameReq = s.frameReq := rfl
@[simp] theorem State.carve_turns (s : State) (p : TimingProfile) : (s.carve p).turns = s.turns := rfl
@[simp] theorem State.carve_draws (s : State) (p : TimingProfile) : (s.carve p).draws = s.draws + 1 := rfl
@[simp] theorem State.carve_resets (s : State) (p : TimingProfile) : (s.carve p).resets = s.resets := rfl

/-! ### `State.enterIdle` -/

@[simp] theorem State.enterIdle_cfg (s : State) : s.enterIdle.cfg = s.cfg := rfl
@[simp] theorem State.enterIdle_mode (s : State) : s.enterIdle.mode = .idle := rfl
@[simp] theorem State.enterIdle_calFail (s : State) : s.enterIdle.calFail = s.calFail := rfl
@[simp] theorem State.enterIdle_txEn (s : State) : s.enterIdle.txEn = s.txEn := rfl
@[simp] theorem State.enterIdle_tmEn (s : State) : s.enterIdle.tmEn = s.tmEn := rfl
@[simp] theorem State.enterIdle_odEn (s : State) : s.enterIdle.odEn = s.odEn := rfl
@[simp] theorem State.enterIdle_odOutEn (s : State) : s.enterIdle.odOutEn = s.odOutEn := rfl
@[simp] theorem State.enterIdle_smpEn (s : State) : s.enterIdle.smpEn = s.smpEn := rfl
@[simp] theorem State.enterIdle_req (s : State) : s.enterIdle.req = .none := rfl
@[simp] theorem State.enterIdle_prof (s : State) : s.enterIdle.prof = .none := rfl
@[simp] theorem State.enterIdle_tmDesc (s : State) : s.enterIdle.tmDesc = .zero := rfl
@[simp] theorem State.enterIdle_odDesc (s : State) : s.enterIdle.odDesc = .zero := rfl
@[simp] theorem State.enterIdle_smpDesc (s : State) : s.enterIdle.smpDesc = .zero := rfl
@[simp] theorem State.enterIdle_outBuf (s : State) : s.enterIdle.outBuf = releasedBuf s.outBuf := rfl
@[simp] theorem State.enterIdle_inBuf (s : State) : s.enterIdle.inBuf = releasedBuf s.inBuf := rfl
@[simp] theorem State.enterIdle_seq (s : State) : s.enterIdle.seq = s.seq := rfl
@[simp] theorem State.enterIdle_ts (s : State) : s.enterIdle.ts = s.ts := rfl
@[simp] theorem State.enterIdle_parity (s : State) : s.enterIdle.parity = s.parity := rfl
@[simp] theorem State.enterIdle_lastEmitted (s : State) : s.enterIdle.lastEmitted = s.lastEmitted := rfl
@[simp] theorem State.enterIdle_irq (s : State) : s.enterIdle.irq = s.irq := rfl
@[simp] theorem State.enterIdle_odIdx (s : State) : s.enterIdle.odIdx = s.odIdx := rfl
@[simp] theorem State.enterIdle_smpIdx (s : State) : s.enterIdle.smpIdx = s.smpIdx := rfl
@[simp] theorem State.enterIdle_tmPhase (s : State) : s.enterIdle.tmPhase = s.tmPhase := rfl
@[simp] theorem State.enterIdle_cycle (s : State) : s.enterIdle.cycle = s.cycle := rfl
@[simp] theorem State.enterIdle_odLast (s : State) : s.enterIdle.odLast = s.odLast := rfl
@[simp] theorem State.enterIdle_buf (s : State) : s.enterIdle.buf = s.buf := rfl
@[simp] theorem State.enterIdle_scr (s : State) : s.enterIdle.scr = s.scr := rfl
@[simp] theorem State.enterIdle_history (s : State) : s.enterIdle.history = s.history ++ releaseEvents s := rfl
@[simp] theorem State.enterIdle_resp (s : State) : s.enterIdle.resp = s.resp := rfl
@[simp] theorem State.enterIdle_cmd (s : State) : s.enterIdle.cmd = s.cmd := rfl
@[simp] theorem State.enterIdle_frameReq (s : State) : s.enterIdle.frameReq = s.frameReq := rfl
@[simp] theorem State.enterIdle_turns (s : State) : s.enterIdle.turns = s.turns := rfl
@[simp] theorem State.enterIdle_draws (s : State) : s.enterIdle.draws = s.draws := rfl
@[simp] theorem State.enterIdle_resets (s : State) : s.enterIdle.resets = s.resets := rfl

/-! ### `State.stopBody` -/

@[simp] theorem State.stopBody_cfg (s : State) : s.stopBody.cfg = s.cfg := rfl
@[simp] theorem State.stopBody_mode (s : State) : s.stopBody.mode = stoppedMode s.mode := rfl
@[simp] theorem State.stopBody_calFail (s : State) : s.stopBody.calFail = s.calFail := rfl
@[simp] theorem State.stopBody_txEn (s : State) : s.stopBody.txEn = s.txEn := rfl
@[simp] theorem State.stopBody_tmEn (s : State) : s.stopBody.tmEn = false := rfl
@[simp] theorem State.stopBody_odEn (s : State) : s.stopBody.odEn = false := rfl
@[simp] theorem State.stopBody_odOutEn (s : State) : s.stopBody.odOutEn = false := rfl
@[simp] theorem State.stopBody_smpEn (s : State) : s.stopBody.smpEn = false := rfl
@[simp] theorem State.stopBody_req (s : State) : s.stopBody.req = s.req := rfl
@[simp] theorem State.stopBody_prof (s : State) : s.stopBody.prof = s.prof := rfl
@[simp] theorem State.stopBody_tmDesc (s : State) : s.stopBody.tmDesc = s.tmDesc := rfl
@[simp] theorem State.stopBody_odDesc (s : State) : s.stopBody.odDesc = s.odDesc := rfl
@[simp] theorem State.stopBody_smpDesc (s : State) : s.stopBody.smpDesc = s.smpDesc := rfl
@[simp] theorem State.stopBody_outBuf (s : State) : s.stopBody.outBuf = s.outBuf := rfl
@[simp] theorem State.stopBody_inBuf (s : State) : s.stopBody.inBuf = s.inBuf := rfl
@[simp] theorem State.stopBody_seq (s : State) : s.stopBody.seq = s.seq := rfl
@[simp] theorem State.stopBody_ts (s : State) : s.stopBody.ts = s.ts := rfl
@[simp] theorem State.stopBody_parity (s : State) : s.stopBody.parity = s.parity := rfl
@[simp] theorem State.stopBody_lastEmitted (s : State) : s.stopBody.lastEmitted = s.lastEmitted := rfl
@[simp] theorem State.stopBody_irq (s : State) : s.stopBody.irq = s.irq := rfl
@[simp] theorem State.stopBody_odIdx (s : State) : s.stopBody.odIdx = s.odIdx := rfl
@[simp] theorem State.stopBody_smpIdx (s : State) : s.stopBody.smpIdx = s.smpIdx := rfl
@[simp] theorem State.stopBody_tmPhase (s : State) : s.stopBody.tmPhase = s.tmPhase := rfl
@[simp] theorem State.stopBody_cycle (s : State) : s.stopBody.cycle = s.cycle := rfl
@[simp] theorem State.stopBody_odLast (s : State) : s.stopBody.odLast = s.odLast := rfl
@[simp] theorem State.stopBody_buf (s : State) : s.stopBody.buf = s.buf := rfl
@[simp] theorem State.stopBody_scr (s : State) : s.stopBody.scr = s.scr := rfl
@[simp] theorem State.stopBody_history (s : State) : s.stopBody.history = s.history := rfl
@[simp] theorem State.stopBody_resp (s : State) : s.stopBody.resp = s.resp := rfl
@[simp] theorem State.stopBody_cmd (s : State) : s.stopBody.cmd = s.cmd := rfl
@[simp] theorem State.stopBody_frameReq (s : State) : s.stopBody.frameReq = s.frameReq := rfl
@[simp] theorem State.stopBody_turns (s : State) : s.stopBody.turns = s.turns := rfl
@[simp] theorem State.stopBody_draws (s : State) : s.stopBody.draws = s.draws := rfl
@[simp] theorem State.stopBody_resets (s : State) : s.stopBody.resets = s.resets := rfl

/-! ### `State.configureEntry` -/

@[simp] theorem State.configureEntry_cfg (s : State) : s.configureEntry.cfg = s.cfg := by
  unfold State.configureEntry; split <;> rfl
@[simp] theorem State.configureEntry_mode (s : State) : s.configureEntry.mode = stoppedMode s.mode := by
  unfold State.configureEntry; split
  · rfl
  · rename_i h; cases hm : s.mode <;> simp_all [stoppedMode]
@[simp] theorem State.configureEntry_calFail (s : State) : s.configureEntry.calFail = s.calFail := by
  unfold State.configureEntry; split <;> rfl
@[simp] theorem State.configureEntry_txEn (s : State) : s.configureEntry.txEn = s.txEn := by
  unfold State.configureEntry; split <;> rfl
@[simp] theorem State.configureEntry_tmEn (s : State) :
    s.configureEntry.tmEn = (if s.mode = .running then false else s.tmEn) := by
  unfold State.configureEntry; split <;> rfl
@[simp] theorem State.configureEntry_odEn (s : State) :
    s.configureEntry.odEn = (if s.mode = .running then false else s.odEn) := by
  unfold State.configureEntry; split <;> rfl
@[simp] theorem State.configureEntry_odOutEn (s : State) :
    s.configureEntry.odOutEn = (if s.mode = .running then false else s.odOutEn) := by
  unfold State.configureEntry; split <;> rfl
@[simp] theorem State.configureEntry_smpEn (s : State) :
    s.configureEntry.smpEn = (if s.mode = .running then false else s.smpEn) := by
  unfold State.configureEntry; split <;> rfl
@[simp] theorem State.configureEntry_req (s : State) : s.configureEntry.req = s.req := by
  unfold State.configureEntry; split <;> rfl
@[simp] theorem State.configureEntry_prof (s : State) : s.configureEntry.prof = s.prof := by
  unfold State.configureEntry; split <;> rfl
@[simp] theorem State.configureEntry_tmDesc (s : State) : s.configureEntry.tmDesc = s.tmDesc := by
  unfold State.configureEntry; split <;> rfl
@[simp] theorem State.configureEntry_odDesc (s : State) : s.configureEntry.odDesc = s.odDesc := by
  unfold State.configureEntry; split <;> rfl
@[simp] theorem State.configureEntry_smpDesc (s : State) : s.configureEntry.smpDesc = s.smpDesc := by
  unfold State.configureEntry; split <;> rfl
@[simp] theorem State.configureEntry_outBuf (s : State) : s.configureEntry.outBuf = s.outBuf := by
  unfold State.configureEntry; split <;> rfl
@[simp] theorem State.configureEntry_inBuf (s : State) : s.configureEntry.inBuf = s.inBuf := by
  unfold State.configureEntry; split <;> rfl
@[simp] theorem State.configureEntry_seq (s : State) : s.configureEntry.seq = s.seq := by
  unfold State.configureEntry; split <;> rfl
@[simp] theorem State.configureEntry_ts (s : State) : s.configureEntry.ts = s.ts := by
  unfold State.configureEntry; split <;> rfl
@[simp] theorem State.configureEntry_parity (s : State) : s.configureEntry.parity = s.parity := by
  unfold State.configureEntry; split <;> rfl
@[simp] theorem State.configureEntry_lastEmitted (s : State) : s.configureEntry.lastEmitted = s.seq := by
  unfold State.configureEntry; split <;> rfl
@[simp] theorem State.configureEntry_irq (s : State) : s.configureEntry.irq = s.irq := by
  unfold State.configureEntry; split <;> rfl
@[simp] theorem State.configureEntry_odIdx (s : State) : s.configureEntry.odIdx = s.odIdx := by
  unfold State.configureEntry; split <;> rfl
@[simp] theorem State.configureEntry_smpIdx (s : State) : s.configureEntry.smpIdx = s.smpIdx := by
  unfold State.configureEntry; split <;> rfl
@[simp] theorem State.configureEntry_tmPhase (s : State) : s.configureEntry.tmPhase = s.tmPhase := by
  unfold State.configureEntry; split <;> rfl
@[simp] theorem State.configureEntry_cycle (s : State) : s.configureEntry.cycle = s.cycle := by
  unfold State.configureEntry; split <;> rfl
@[simp] theorem State.configureEntry_odLast (s : State) : s.configureEntry.odLast = s.odLast := by
  unfold State.configureEntry; split <;> rfl
@[simp] theorem State.configureEntry_buf (s : State) : s.configureEntry.buf = s.buf := by
  unfold State.configureEntry; split <;> rfl
@[simp] theorem State.configureEntry_scr (s : State) : s.configureEntry.scr = s.scr := by
  unfold State.configureEntry; split <;> rfl
@[simp] theorem State.configureEntry_history (s : State) : s.configureEntry.history = s.history := by
  unfold State.configureEntry; split <;> rfl
@[simp] theorem State.configureEntry_resp (s : State) : s.configureEntry.resp = s.resp := by
  unfold State.configureEntry; split <;> rfl
@[simp] theorem State.configureEntry_cmd (s : State) : s.configureEntry.cmd = s.cmd := by
  unfold State.configureEntry; split <;> rfl
@[simp] theorem State.configureEntry_frameReq (s : State) : s.configureEntry.frameReq = s.frameReq := by
  unfold State.configureEntry; split <;> rfl
@[simp] theorem State.configureEntry_turns (s : State) : s.configureEntry.turns = s.turns := by
  unfold State.configureEntry; split <;> rfl
@[simp] theorem State.configureEntry_draws (s : State) : s.configureEntry.draws = s.draws := by
  unfold State.configureEntry; split <;> rfl
@[simp] theorem State.configureEntry_resets (s : State) : s.configureEntry.resets = s.resets := by
  unfold State.configureEntry; split <;> rfl

/-! ### `State.programDescriptors` -/

@[simp] theorem State.programDescriptors_cfg (s : State) (p : TimingProfile) :
    (s.programDescriptors p).cfg = s.cfg := rfl
@[simp] theorem State.programDescriptors_mode (s : State) (p : TimingProfile) :
    (s.programDescriptors p).mode = s.mode := rfl
@[simp] theorem State.programDescriptors_calFail (s : State) (p : TimingProfile) :
    (s.programDescriptors p).calFail = s.calFail := rfl
@[simp] theorem State.programDescriptors_txEn (s : State) (p : TimingProfile) :
    (s.programDescriptors p).txEn = s.txEn := rfl
@[simp] theorem State.programDescriptors_tmEn (s : State) (p : TimingProfile) :
    (s.programDescriptors p).tmEn = s.tmEn := rfl
@[simp] theorem State.programDescriptors_odEn (s : State) (p : TimingProfile) :
    (s.programDescriptors p).odEn = s.odEn := rfl
@[simp] theorem State.programDescriptors_odOutEn (s : State) (p : TimingProfile) :
    (s.programDescriptors p).odOutEn = s.odOutEn := rfl
@[simp] theorem State.programDescriptors_smpEn (s : State) (p : TimingProfile) :
    (s.programDescriptors p).smpEn = s.smpEn := rfl
@[simp] theorem State.programDescriptors_req (s : State) (p : TimingProfile) :
    (s.programDescriptors p).req = s.req := rfl
@[simp] theorem State.programDescriptors_prof (s : State) (p : TimingProfile) :
    (s.programDescriptors p).prof = s.prof := rfl
@[simp] theorem State.programDescriptors_tmDesc (s : State) (p : TimingProfile) :
    (s.programDescriptors p).tmDesc = ⟨heldIn32 p.spc, heldIn32 p.chDelay, heldIn32 p.outInterval, heldLength p.tsf⟩ := rfl
@[simp] theorem State.programDescriptors_odDesc (s : State) (p : TimingProfile) :
    (s.programDescriptors p).odDesc = ⟨s.outBuf.base, 2, heldLength p.outLen, .circular⟩ := rfl
@[simp] theorem State.programDescriptors_smpDesc (s : State) (p : TimingProfile) :
    (s.programDescriptors p).smpDesc = ⟨s.inBuf.base, 2, heldLength p.inLen, .pingPong⟩ := rfl
@[simp] theorem State.programDescriptors_outBuf (s : State) (p : TimingProfile) :
    (s.programDescriptors p).outBuf = s.outBuf := rfl
@[simp] theorem State.programDescriptors_inBuf (s : State) (p : TimingProfile) :
    (s.programDescriptors p).inBuf = s.inBuf := rfl
@[simp] theorem State.programDescriptors_seq (s : State) (p : TimingProfile) :
    (s.programDescriptors p).seq = s.seq := rfl
@[simp] theorem State.programDescriptors_ts (s : State) (p : TimingProfile) :
    (s.programDescriptors p).ts = s.ts := rfl
@[simp] theorem State.programDescriptors_parity (s : State) (p : TimingProfile) :
    (s.programDescriptors p).parity = s.parity := rfl
@[simp] theorem State.programDescriptors_lastEmitted (s : State) (p : TimingProfile) :
    (s.programDescriptors p).lastEmitted = s.lastEmitted := rfl
@[simp] theorem State.programDescriptors_irq (s : State) (p : TimingProfile) :
    (s.programDescriptors p).irq = s.irq := rfl
@[simp] theorem State.programDescriptors_odIdx (s : State) (p : TimingProfile) :
    (s.programDescriptors p).odIdx = s.odIdx := rfl
@[simp] theorem State.programDescriptors_smpIdx (s : State) (p : TimingProfile) :
    (s.programDescriptors p).smpIdx = s.smpIdx := rfl
@[simp] theorem State.programDescriptors_tmPhase (s : State) (p : TimingProfile) :
    (s.programDescriptors p).tmPhase = s.tmPhase := rfl
@[simp] theorem State.programDescriptors_cycle (s : State) (p : TimingProfile) :
    (s.programDescriptors p).cycle = s.cycle := rfl
@[simp] theorem State.programDescriptors_odLast (s : State) (p : TimingProfile) :
    (s.programDescriptors p).odLast = s.odLast := rfl
@[simp] theorem State.programDescriptors_buf (s : State) (p : TimingProfile) :
    (s.programDescriptors p).buf = s.buf := rfl
@[simp] theorem State.programDescriptors_scr (s : State) (p : TimingProfile) :
    (s.programDescriptors p).scr = s.scr := rfl
@[simp] theorem State.programDescriptors_history (s : State) (p : TimingProfile) :
    (s.programDescriptors p).history = s.history := rfl
@[simp] theorem State.programDescriptors_resp (s : State) (p : TimingProfile) :
    (s.programDescriptors p).resp = s.resp := rfl
@[simp] theorem State.programDescriptors_cmd (s : State) (p : TimingProfile) :
    (s.programDescriptors p).cmd = s.cmd := rfl
@[simp] theorem State.programDescriptors_frameReq (s : State) (p : TimingProfile) :
    (s.programDescriptors p).frameReq = s.frameReq := rfl
@[simp] theorem State.programDescriptors_turns (s : State) (p : TimingProfile) :
    (s.programDescriptors p).turns = s.turns := rfl
@[simp] theorem State.programDescriptors_draws (s : State) (p : TimingProfile) :
    (s.programDescriptors p).draws = s.draws := rfl
@[simp] theorem State.programDescriptors_resets (s : State) (p : TimingProfile) :
    (s.programDescriptors p).resets = s.resets := rfl

/-! ### `State.bind` -/

@[simp] theorem State.bind_cfg (s : State) (q : Request) (p : TimingProfile) : (s.bind q p).cfg = s.cfg := rfl
@[simp] theorem State.bind_mode (s : State) (q : Request) (p : TimingProfile) :
    (s.bind q p).mode = .configured := rfl
@[simp] theorem State.bind_calFail (s : State) (q : Request) (p : TimingProfile) :
    (s.bind q p).calFail = s.calFail := rfl
@[simp] theorem State.bind_txEn (s : State) (q : Request) (p : TimingProfile) : (s.bind q p).txEn = s.txEn := rfl
@[simp] theorem State.bind_tmEn (s : State) (q : Request) (p : TimingProfile) : (s.bind q p).tmEn = s.tmEn := rfl
@[simp] theorem State.bind_odEn (s : State) (q : Request) (p : TimingProfile) : (s.bind q p).odEn = s.odEn := rfl
@[simp] theorem State.bind_odOutEn (s : State) (q : Request) (p : TimingProfile) :
    (s.bind q p).odOutEn = s.odOutEn := rfl
@[simp] theorem State.bind_smpEn (s : State) (q : Request) (p : TimingProfile) :
    (s.bind q p).smpEn = s.smpEn := rfl
@[simp] theorem State.bind_req (s : State) (q : Request) (p : TimingProfile) : (s.bind q p).req = q := rfl
@[simp] theorem State.bind_prof (s : State) (q : Request) (p : TimingProfile) :
    (s.bind q p).prof = boundProfile p := rfl
@[simp] theorem State.bind_tmDesc (s : State) (q : Request) (p : TimingProfile) :
    (s.bind q p).tmDesc = s.tmDesc := rfl
@[simp] theorem State.bind_odDesc (s : State) (q : Request) (p : TimingProfile) :
    (s.bind q p).odDesc = s.odDesc := rfl
@[simp] theorem State.bind_smpDesc (s : State) (q : Request) (p : TimingProfile) :
    (s.bind q p).smpDesc = s.smpDesc := rfl
@[simp] theorem State.bind_outBuf (s : State) (q : Request) (p : TimingProfile) :
    (s.bind q p).outBuf = s.outBuf := rfl
@[simp] theorem State.bind_inBuf (s : State) (q : Request) (p : TimingProfile) :
    (s.bind q p).inBuf = s.inBuf := rfl
@[simp] theorem State.bind_seq (s : State) (q : Request) (p : TimingProfile) : (s.bind q p).seq = s.seq := rfl
@[simp] theorem State.bind_ts (s : State) (q : Request) (p : TimingProfile) : (s.bind q p).ts = s.ts := rfl
@[simp] theorem State.bind_parity (s : State) (q : Request) (p : TimingProfile) :
    (s.bind q p).parity = s.parity := rfl
@[simp] theorem State.bind_lastEmitted (s : State) (q : Request) (p : TimingProfile) :
    (s.bind q p).lastEmitted = s.lastEmitted := rfl
@[simp] theorem State.bind_irq (s : State) (q : Request) (p : TimingProfile) : (s.bind q p).irq = s.irq := rfl
@[simp] theorem State.bind_odIdx (s : State) (q : Request) (p : TimingProfile) :
    (s.bind q p).odIdx = s.odIdx := rfl
@[simp] theorem State.bind_smpIdx (s : State) (q : Request) (p : TimingProfile) :
    (s.bind q p).smpIdx = s.smpIdx := rfl
@[simp] theorem State.bind_tmPhase (s : State) (q : Request) (p : TimingProfile) :
    (s.bind q p).tmPhase = s.tmPhase := rfl
@[simp] theorem State.bind_cycle (s : State) (q : Request) (p : TimingProfile) :
    (s.bind q p).cycle = s.cycle := rfl
@[simp] theorem State.bind_odLast (s : State) (q : Request) (p : TimingProfile) :
    (s.bind q p).odLast = s.odLast := rfl
@[simp] theorem State.bind_buf (s : State) (q : Request) (p : TimingProfile) : (s.bind q p).buf = s.buf := rfl
@[simp] theorem State.bind_scr (s : State) (q : Request) (p : TimingProfile) : (s.bind q p).scr = s.scr := rfl
@[simp] theorem State.bind_history (s : State) (q : Request) (p : TimingProfile) :
    (s.bind q p).history = s.history ++ [Event.gain q.gain] := rfl
@[simp] theorem State.bind_resp (s : State) (q : Request) (p : TimingProfile) : (s.bind q p).resp = s.resp := rfl
@[simp] theorem State.bind_cmd (s : State) (q : Request) (p : TimingProfile) : (s.bind q p).cmd = s.cmd := rfl
@[simp] theorem State.bind_frameReq (s : State) (q : Request) (p : TimingProfile) :
    (s.bind q p).frameReq = s.frameReq := rfl
@[simp] theorem State.bind_turns (s : State) (q : Request) (p : TimingProfile) :
    (s.bind q p).turns = s.turns := rfl
@[simp] theorem State.bind_draws (s : State) (q : Request) (p : TimingProfile) :
    (s.bind q p).draws = s.draws := rfl
@[simp] theorem State.bind_resets (s : State) (q : Request) (p : TimingProfile) :
    (s.bind q p).resets = s.resets := rfl

/-! ### `State.startBody` -/

@[simp] theorem State.startBody_cfg (s : State) : s.startBody.cfg = s.cfg := rfl
@[simp] theorem State.startBody_mode (s : State) : s.startBody.mode = .running := rfl
@[simp] theorem State.startBody_calFail (s : State) : s.startBody.calFail = s.calFail := rfl
@[simp] theorem State.startBody_txEn (s : State) : s.startBody.txEn = s.txEn := rfl
@[simp] theorem State.startBody_tmEn (s : State) : s.startBody.tmEn = true := rfl
@[simp] theorem State.startBody_odEn (s : State) : s.startBody.odEn = true := rfl
@[simp] theorem State.startBody_odOutEn (s : State) : s.startBody.odOutEn = true := rfl
@[simp] theorem State.startBody_smpEn (s : State) : s.startBody.smpEn = true := rfl
@[simp] theorem State.startBody_req (s : State) : s.startBody.req = s.req := rfl
@[simp] theorem State.startBody_prof (s : State) : s.startBody.prof = s.prof := rfl
@[simp] theorem State.startBody_tmDesc (s : State) : s.startBody.tmDesc = s.tmDesc := rfl
@[simp] theorem State.startBody_odDesc (s : State) : s.startBody.odDesc = s.odDesc := rfl
@[simp] theorem State.startBody_smpDesc (s : State) : s.startBody.smpDesc = s.smpDesc := rfl
@[simp] theorem State.startBody_outBuf (s : State) : s.startBody.outBuf = s.outBuf := rfl
@[simp] theorem State.startBody_inBuf (s : State) : s.startBody.inBuf = s.inBuf := rfl
@[simp] theorem State.startBody_seq (s : State) : s.startBody.seq = s.seq := rfl
@[simp] theorem State.startBody_ts (s : State) : s.startBody.ts = s.ts := rfl
@[simp] theorem State.startBody_parity (s : State) : s.startBody.parity = s.parity := rfl
@[simp] theorem State.startBody_lastEmitted (s : State) : s.startBody.lastEmitted = s.lastEmitted := rfl
@[simp] theorem State.startBody_irq (s : State) : s.startBody.irq = s.irq := rfl
@[simp] theorem State.startBody_odIdx (s : State) : s.startBody.odIdx = 0 := rfl
@[simp] theorem State.startBody_smpIdx (s : State) : s.startBody.smpIdx = 0 := rfl
@[simp] theorem State.startBody_tmPhase (s : State) : s.startBody.tmPhase = 0 := rfl
@[simp] theorem State.startBody_cycle (s : State) : s.startBody.cycle = 0 := rfl
@[simp] theorem State.startBody_odLast (s : State) : s.startBody.odLast = none := rfl
@[simp] theorem State.startBody_buf (s : State) : s.startBody.buf = s.buf := rfl
@[simp] theorem State.startBody_scr (s : State) : s.startBody.scr = s.scr := rfl
@[simp] theorem State.startBody_history (s : State) : s.startBody.history = s.history := rfl
@[simp] theorem State.startBody_resp (s : State) : s.startBody.resp = s.resp := rfl
@[simp] theorem State.startBody_cmd (s : State) : s.startBody.cmd = s.cmd := rfl
@[simp] theorem State.startBody_frameReq (s : State) : s.startBody.frameReq = s.frameReq := rfl
@[simp] theorem State.startBody_turns (s : State) : s.startBody.turns = s.turns := rfl
@[simp] theorem State.startBody_draws (s : State) : s.startBody.draws = s.draws := rfl
@[simp] theorem State.startBody_resets (s : State) : s.startBody.resets = s.resets := rfl

/-! ### `State.consumePulse` -/

@[simp] theorem State.consumePulse_cfg (s : State) : s.consumePulse.cfg = s.cfg := rfl
@[simp] theorem State.consumePulse_mode (s : State) : s.consumePulse.mode = s.mode := rfl
@[simp] theorem State.consumePulse_calFail (s : State) : s.consumePulse.calFail = s.calFail := rfl
@[simp] theorem State.consumePulse_txEn (s : State) : s.consumePulse.txEn = s.txEn := rfl
@[simp] theorem State.consumePulse_tmEn (s : State) : s.consumePulse.tmEn = s.tmEn := rfl
@[simp] theorem State.consumePulse_odEn (s : State) : s.consumePulse.odEn = s.odEn := rfl
@[simp] theorem State.consumePulse_odOutEn (s : State) : s.consumePulse.odOutEn = s.odOutEn := rfl
@[simp] theorem State.consumePulse_smpEn (s : State) : s.consumePulse.smpEn = s.smpEn := rfl
@[simp] theorem State.consumePulse_req (s : State) : s.consumePulse.req = s.req := rfl
@[simp] theorem State.consumePulse_prof (s : State) : s.consumePulse.prof = s.prof := rfl
@[simp] theorem State.consumePulse_tmDesc (s : State) : s.consumePulse.tmDesc = s.tmDesc := rfl
@[simp] theorem State.consumePulse_odDesc (s : State) : s.consumePulse.odDesc = s.odDesc := rfl
@[simp] theorem State.consumePulse_smpDesc (s : State) : s.consumePulse.smpDesc = s.smpDesc := rfl
@[simp] theorem State.consumePulse_outBuf (s : State) : s.consumePulse.outBuf = s.outBuf := rfl
@[simp] theorem State.consumePulse_inBuf (s : State) : s.consumePulse.inBuf = s.inBuf := rfl
@[simp] theorem State.consumePulse_seq (s : State) : s.consumePulse.seq = s.seq := rfl
@[simp] theorem State.consumePulse_ts (s : State) : s.consumePulse.ts = s.ts := rfl
@[simp] theorem State.consumePulse_parity (s : State) : s.consumePulse.parity = s.parity := rfl
@[simp] theorem State.consumePulse_lastEmitted (s : State) : s.consumePulse.lastEmitted = s.seq := rfl
@[simp] theorem State.consumePulse_irq (s : State) : s.consumePulse.irq = s.irq := rfl
@[simp] theorem State.consumePulse_odIdx (s : State) : s.consumePulse.odIdx = s.odIdx := rfl
@[simp] theorem State.consumePulse_smpIdx (s : State) : s.consumePulse.smpIdx = s.smpIdx := rfl
@[simp] theorem State.consumePulse_tmPhase (s : State) : s.consumePulse.tmPhase = s.tmPhase := rfl
@[simp] theorem State.consumePulse_cycle (s : State) : s.consumePulse.cycle = s.cycle := rfl
@[simp] theorem State.consumePulse_odLast (s : State) : s.consumePulse.odLast = s.odLast := rfl
@[simp] theorem State.consumePulse_buf (s : State) : s.consumePulse.buf = s.buf := rfl
@[simp] theorem State.consumePulse_scr (s : State) : s.consumePulse.scr = s.scr := rfl
@[simp] theorem State.consumePulse_history (s : State) : s.consumePulse.history = s.history := rfl
@[simp] theorem State.consumePulse_resp (s : State) : s.consumePulse.resp = s.resp := rfl
@[simp] theorem State.consumePulse_cmd (s : State) : s.consumePulse.cmd = s.cmd := rfl
@[simp] theorem State.consumePulse_frameReq (s : State) : s.consumePulse.frameReq = s.frameReq := rfl
@[simp] theorem State.consumePulse_turns (s : State) : s.consumePulse.turns = s.turns := rfl
@[simp] theorem State.consumePulse_draws (s : State) :
    s.consumePulse.draws = (if s.smpEn then s.draws + 1 else s.draws) := rfl
@[simp] theorem State.consumePulse_resets (s : State) : s.consumePulse.resets = s.resets := rfl

/-! ### `send` and the sending commands -/

@[simp] theorem send_cfg (s : State) (type : Half) (pl : List Byte) : (send s type pl).2.cfg = s.cfg := by
  unfold send; split; rfl; split <;> rfl
@[simp] theorem send_mode (s : State) (type : Half) (pl : List Byte) : (send s type pl).2.mode = s.mode := by
  unfold send; split; rfl; split <;> rfl
@[simp] theorem send_calFail (s : State) (type : Half) (pl : List Byte) : (send s type pl).2.calFail = s.calFail := by
  unfold send; split; rfl; split <;> rfl
@[simp] theorem send_txEn (s : State) (type : Half) (pl : List Byte) : (send s type pl).2.txEn = s.txEn := by
  unfold send; split; rfl; split <;> rfl
@[simp] theorem send_tmEn (s : State) (type : Half) (pl : List Byte) : (send s type pl).2.tmEn = s.tmEn := by
  unfold send; split; rfl; split <;> rfl
@[simp] theorem send_odEn (s : State) (type : Half) (pl : List Byte) : (send s type pl).2.odEn = s.odEn := by
  unfold send; split; rfl; split <;> rfl
@[simp] theorem send_odOutEn (s : State) (type : Half) (pl : List Byte) : (send s type pl).2.odOutEn = s.odOutEn := by
  unfold send; split; rfl; split <;> rfl
@[simp] theorem send_smpEn (s : State) (type : Half) (pl : List Byte) : (send s type pl).2.smpEn = s.smpEn := by
  unfold send; split; rfl; split <;> rfl
@[simp] theorem send_req (s : State) (type : Half) (pl : List Byte) : (send s type pl).2.req = s.req := by
  unfold send; split; rfl; split <;> rfl
@[simp] theorem send_prof (s : State) (type : Half) (pl : List Byte) : (send s type pl).2.prof = s.prof := by
  unfold send; split; rfl; split <;> rfl
@[simp] theorem send_tmDesc (s : State) (type : Half) (pl : List Byte) : (send s type pl).2.tmDesc = s.tmDesc := by
  unfold send; split; rfl; split <;> rfl
@[simp] theorem send_odDesc (s : State) (type : Half) (pl : List Byte) : (send s type pl).2.odDesc = s.odDesc := by
  unfold send; split; rfl; split <;> rfl
@[simp] theorem send_smpDesc (s : State) (type : Half) (pl : List Byte) : (send s type pl).2.smpDesc = s.smpDesc := by
  unfold send; split; rfl; split <;> rfl
@[simp] theorem send_outBuf (s : State) (type : Half) (pl : List Byte) : (send s type pl).2.outBuf = s.outBuf := by
  unfold send; split; rfl; split <;> rfl
@[simp] theorem send_inBuf (s : State) (type : Half) (pl : List Byte) : (send s type pl).2.inBuf = s.inBuf := by
  unfold send; split; rfl; split <;> rfl
@[simp] theorem send_seq (s : State) (type : Half) (pl : List Byte) : (send s type pl).2.seq = s.seq := by
  unfold send; split; rfl; split <;> rfl
@[simp] theorem send_ts (s : State) (type : Half) (pl : List Byte) : (send s type pl).2.ts = s.ts := by
  unfold send; split; rfl; split <;> rfl
@[simp] theorem send_parity (s : State) (type : Half) (pl : List Byte) : (send s type pl).2.parity = s.parity := by
  unfold send; split; rfl; split <;> rfl
@[simp] theorem send_lastEmitted (s : State) (type : Half) (pl : List Byte) : (send s type pl).2.lastEmitted = s.lastEmitted := by
  unfold send; split; rfl; split <;> rfl
@[simp] theorem send_irq (s : State) (type : Half) (pl : List Byte) : (send s type pl).2.irq = s.irq := by
  unfold send; split; rfl; split <;> rfl
@[simp] theorem send_odIdx (s : State) (type : Half) (pl : List Byte) : (send s type pl).2.odIdx = s.odIdx := by
  unfold send; split; rfl; split <;> rfl
@[simp] theorem send_smpIdx (s : State) (type : Half) (pl : List Byte) : (send s type pl).2.smpIdx = s.smpIdx := by
  unfold send; split; rfl; split <;> rfl
@[simp] theorem send_tmPhase (s : State) (type : Half) (pl : List Byte) : (send s type pl).2.tmPhase = s.tmPhase := by
  unfold send; split; rfl; split <;> rfl
@[simp] theorem send_cycle (s : State) (type : Half) (pl : List Byte) : (send s type pl).2.cycle = s.cycle := by
  unfold send; split; rfl; split <;> rfl
@[simp] theorem send_odLast (s : State) (type : Half) (pl : List Byte) : (send s type pl).2.odLast = s.odLast := by
  unfold send; split; rfl; split <;> rfl
@[simp] theorem send_buf (s : State) (type : Half) (pl : List Byte) : (send s type pl).2.buf = s.buf := by
  unfold send; split; rfl; split <;> rfl
@[simp] theorem send_resp (s : State) (type : Half) (pl : List Byte) : (send s type pl).2.resp = s.resp := by
  unfold send; split; rfl; split <;> rfl
@[simp] theorem send_cmd (s : State) (type : Half) (pl : List Byte) : (send s type pl).2.cmd = s.cmd := by
  unfold send; split; rfl; split <;> rfl
@[simp] theorem send_frameReq (s : State) (type : Half) (pl : List Byte) : (send s type pl).2.frameReq = s.frameReq := by
  unfold send; split; rfl; split <;> rfl
@[simp] theorem send_turns (s : State) (type : Half) (pl : List Byte) : (send s type pl).2.turns = s.turns := by
  unfold send; split; rfl; split <;> rfl
@[simp] theorem send_draws (s : State) (type : Half) (pl : List Byte) : (send s type pl).2.draws = s.draws := by
  unfold send; split; rfl; split <;> rfl
@[simp] theorem send_resets (s : State) (type : Half) (pl : List Byte) : (send s type pl).2.resets = s.resets := by
  unfold send; split; rfl; split <;> rfl
@[simp] theorem sendAndRespond_cfg (s : State) (type : Half) (pl : List Byte) :
    (sendAndRespond s type pl).cfg = s.cfg := by simp [sendAndRespond]
@[simp] theorem sendAndRespond_mode (s : State) (type : Half) (pl : List Byte) :
    (sendAndRespond s type pl).mode = s.mode := by simp [sendAndRespond]
@[simp] theorem sendAndRespond_calFail (s : State) (type : Half) (pl : List Byte) :
    (sendAndRespond s type pl).calFail = s.calFail := by simp [sendAndRespond]
@[simp] theorem sendAndRespond_txEn (s : State) (type : Half) (pl : List Byte) :
    (sendAndRespond s type pl).txEn = s.txEn := by simp [sendAndRespond]
@[simp] theorem sendAndRespond_tmEn (s : State) (type : Half) (pl : List Byte) :
    (sendAndRespond s type pl).tmEn = s.tmEn := by simp [sendAndRespond]
@[simp] theorem sendAndRespond_odEn (s : State) (type : Half) (pl : List Byte) :
    (sendAndRespond s type pl).odEn = s.odEn := by simp [sendAndRespond]
@[simp] theorem sendAndRespond_odOutEn (s : State) (type : Half) (pl : List Byte) :
    (sendAndRespond s type pl).odOutEn = s.odOutEn := by simp [sendAndRespond]
@[simp] theorem sendAndRespond_smpEn (s : State) (type : Half) (pl : List Byte) :
    (sendAndRespond s type pl).smpEn = s.smpEn := by simp [sendAndRespond]
@[simp] theorem sendAndRespond_req (s : State) (type : Half) (pl : List Byte) :
    (sendAndRespond s type pl).req = s.req := by simp [sendAndRespond]
@[simp] theorem sendAndRespond_prof (s : State) (type : Half) (pl : List Byte) :
    (sendAndRespond s type pl).prof = s.prof := by simp [sendAndRespond]
@[simp] theorem sendAndRespond_tmDesc (s : State) (type : Half) (pl : List Byte) :
    (sendAndRespond s type pl).tmDesc = s.tmDesc := by simp [sendAndRespond]
@[simp] theorem sendAndRespond_odDesc (s : State) (type : Half) (pl : List Byte) :
    (sendAndRespond s type pl).odDesc = s.odDesc := by simp [sendAndRespond]
@[simp] theorem sendAndRespond_smpDesc (s : State) (type : Half) (pl : List Byte) :
    (sendAndRespond s type pl).smpDesc = s.smpDesc := by simp [sendAndRespond]
@[simp] theorem sendAndRespond_outBuf (s : State) (type : Half) (pl : List Byte) :
    (sendAndRespond s type pl).outBuf = s.outBuf := by simp [sendAndRespond]
@[simp] theorem sendAndRespond_inBuf (s : State) (type : Half) (pl : List Byte) :
    (sendAndRespond s type pl).inBuf = s.inBuf := by simp [sendAndRespond]
@[simp] theorem sendAndRespond_seq (s : State) (type : Half) (pl : List Byte) :
    (sendAndRespond s type pl).seq = s.seq := by simp [sendAndRespond]
@[simp] theorem sendAndRespond_ts (s : State) (type : Half) (pl : List Byte) :
    (sendAndRespond s type pl).ts = s.ts := by simp [sendAndRespond]
@[simp] theorem sendAndRespond_parity (s : State) (type : Half) (pl : List Byte) :
    (sendAndRespond s type pl).parity = s.parity := by simp [sendAndRespond]
@[simp] theorem sendAndRespond_lastEmitted (s : State) (type : Half) (pl : List Byte) :
    (sendAndRespond s type pl).lastEmitted = s.lastEmitted := by simp [sendAndRespond]
@[simp] theorem sendAndRespond_irq (s : State) (type : Half) (pl : List Byte) :
    (sendAndRespond s type pl).irq = s.irq := by simp [sendAndRespond]
@[simp] theorem sendAndRespond_odIdx (s : State) (type : Half) (pl : List Byte) :
    (sendAndRespond s type pl).odIdx = s.odIdx := by simp [sendAndRespond]
@[simp] theorem sendAndRespond_smpIdx (s : State) (type : Half) (pl : List Byte) :
    (sendAndRespond s type pl).smpIdx = s.smpIdx := by simp [sendAndRespond]
@[simp] theorem sendAndRespond_tmPhase (s : State) (type : Half) (pl : List Byte) :
    (sendAndRespond s type pl).tmPhase = s.tmPhase := by simp [sendAndRespond]
@[simp] theorem sendAndRespond_cycle (s : State) (type : Half) (pl : List Byte) :
    (sendAndRespond s type pl).cycle = s.cycle := by simp [sendAndRespond]
@[simp] theorem sendAndRespond_odLast (s : State) (type : Half) (pl : List Byte) :
    (sendAndRespond s type pl).odLast = s.odLast := by simp [sendAndRespond]
@[simp] theorem sendAndRespond_buf (s : State) (type : Half) (pl : List Byte) :
    (sendAndRespond s type pl).buf = s.buf := by simp [sendAndRespond]
@[simp] theorem sendAndRespond_cmd (s : State) (type : Half) (pl : List Byte) :
    (sendAndRespond s type pl).cmd = s.cmd := by simp [sendAndRespond]
@[simp] theorem sendAndRespond_frameReq (s : State) (type : Half) (pl : List Byte) :
    (sendAndRespond s type pl).frameReq = s.frameReq := by simp [sendAndRespond]
@[simp] theorem sendAndRespond_turns (s : State) (type : Half) (pl : List Byte) :
    (sendAndRespond s type pl).turns = s.turns := by simp [sendAndRespond]
@[simp] theorem sendAndRespond_draws (s : State) (type : Half) (pl : List Byte) :
    (sendAndRespond s type pl).draws = s.draws := by simp [sendAndRespond]
@[simp] theorem sendAndRespond_resets (s : State) (type : Half) (pl : List Byte) :
    (sendAndRespond s type pl).resets = s.resets := by simp [sendAndRespond]

/-! ### Reset -/

@[simp] theorem State.interruptReturn_eq (s : State) : s.interruptReturn = s := rfl
@[simp] theorem State.resetStep_cfg (s : State) (b : Bool) : (s.resetStep b).cfg = s.cfg := rfl
@[simp] theorem State.resetStep_calFail (s : State) (b : Bool) : (s.resetStep b).calFail = b := rfl
@[simp] theorem State.resetStep_mode (s : State) (b : Bool) : (s.resetStep b).mode = .idle := rfl
@[simp] theorem State.resetStep_turns (s : State) (b : Bool) : (s.resetStep b).turns = s.turns := rfl
@[simp] theorem State.resetStep_draws (s : State) (b : Bool) : (s.resetStep b).draws = s.draws + 1 := rfl
@[simp] theorem State.resetStep_resets (s : State) (b : Bool) : (s.resetStep b).resets = s.resets + 1 := rfl
@[simp] theorem State.resetStep_seq (s : State) (b : Bool) : (s.resetStep b).seq = 0 := rfl
@[simp] theorem State.resetStep_buf (s : State) (b : Bool) : (s.resetStep b).buf = [] := rfl
@[simp] theorem State.resetStep_scr (s : State) (b : Bool) : (s.resetStep b).scr = [] := rfl
@[simp] theorem State.resetStep_history (s : State) (b : Bool) : (s.resetStep b).history = [] := rfl
@[simp] theorem State.resetStep_outBuf (s : State) (b : Bool) : (s.resetStep b).outBuf = .empty := rfl
@[simp] theorem State.resetStep_inBuf (s : State) (b : Bool) : (s.resetStep b).inBuf = .empty := rfl

end Sys2Proof.Machine
end

