-- ==== Sys2Proof/Laws/Ops.lean ====
section
/-! SUPPORT. For each shared operation one lemma that says everything it can do; later proofs cite these and do not unfold
the operations. -/

namespace Sys2Proof.Machine

/-! ## Counts in 32 bits -/

/-- A count that 32 bits hold is held. -/
theorem heldIn32_of_lt {n : Nat} (h : n < 4294967296) : heldIn32 n = BitVec.ofNat 32 n := by
  simp [heldIn32, h]

/-- A count that 32 bits hold reads back as itself. -/
theorem toNat_heldIn32 {n : Nat} (h : n < 4294967296) : (heldIn32 n).toNat = n := by
  rw [heldIn32_of_lt h, BitVec.toNat_ofNat]
  omega

/-- A length that 32 bits hold is held. -/
theorem heldLength_of_lt {n : Nat} (h : n < 4294967296) : heldLength n = BitVec.ofNat 32 n := by
  simp [heldLength, h]

/-- A length that 32 bits hold reads back as itself. -/
theorem toNat_heldLength {n : Nat} (h : n < 4294967296) : (heldLength n).toNat = n := by
  rw [heldLength_of_lt h, BitVec.toNat_ofNat]
  omega

/-- All that is known of the free value a wider length shows. -/
theorem wideLength_spec (n : Nat) : 2 ≤ (wideLength n).toNat ∧ (wideLength n).toNat % 2 = n % 2 := by
  unfold wideLength
  split
  · assumption
  · rw [BitVec.toNat_ofNat]
    omega

/-- All that `heldLength` can show: the length itself, or a smaller value that is at least 2 and even where it is. -/
theorem heldLength_spec (n : Nat) :
    (n < 4294967296 ∧ (heldLength n).toNat = n)
      ∨ (4294967296 ≤ n ∧ (heldLength n).toNat < n ∧ 2 ≤ (heldLength n).toNat ∧ (heldLength n).toNat % 2 = n % 2) := by
  by_cases h : n < 4294967296
  · exact .inl ⟨h, toNat_heldLength h⟩
  · have hw : heldLength n = wideLength n := by simp [heldLength, h]
    have hl := (wideLength n).isLt
    rw [hw]
    exact .inr ⟨by omega, by omega, wideLength_spec n⟩

/-! ## Responses -/

@[simp] theorem responseWords_ok_nil : responseWords .ok [] = [0#32] := by decide

/-- An error response is its header word, with `NRES = 0`. -/
theorem responseWords_nil (st : Status) : responseWords st [] = [responseHeader st.code st.sub 0] := rfl

/-- Only `OK` has code 0. -/
theorem status_code_eq_zero {st : Status} : st.code = 0 ↔ st = .ok := by
  cases st <;> simp [Status.code]

/-! ## The send unit -/

/-- All that `send` can do: refuse for one of two reasons and change nothing, or write the frame at the start of
`SCR` and deliver it. -/
theorem send_spec (s : State) (type : Half) (pl : List Byte) :
    (s.cfg.scratchCapacity < 8 + pl.length ∧ send s type pl = (.outOfSpace .scratch, s))
      ∨ (8 + pl.length ≤ s.cfg.scratchCapacity ∧ 65535 < pl.length
        ∧ send s type pl = (.outOfSpace .sizeField, s))
      ∨ (8 + pl.length ≤ s.cfg.scratchCapacity ∧ pl.length ≤ 65535
        ∧ send s type pl = (.ok, { s with
            scr := Memory.write s.scr 0 (frameImage s.cfg.frameMagic type pl)
            history := s.history ++ [Event.frame (frameImage s.cfg.frameMagic type pl)] })) := by
  unfold send
  split
  · exact .inl ⟨by assumption, rfl⟩
  · split
    · exact .inr (.inl ⟨by omega, by assumption, rfl⟩)
    · exact .inr (.inr ⟨by omega, by omega, rfl⟩)

/-- A frame is 8 bytes longer than its payload. -/
@[simp] theorem length_frameImage (magic : Word) (type : Half) (pl : List Byte) :
    (frameImage magic type pl).length = 8 + pl.length := by
  simp [frameImage, le32, le16]
  omega

/-! ## The buffer manager -/

@[simp] theorem releasedBuf_len (b : SampleBuf) : (releasedBuf b).len = 0 := by
  unfold releasedBuf
  split
  · assumption
  · rfl

/-- A buffer that is empty whenever it has no elements is emptied. -/
theorem releasedBuf_eq_empty {b : SampleBuf} (h : b.len = 0 → b = .empty) : releasedBuf b = .empty := by
  unfold releasedBuf
  split
  · exact h (by assumption)
  · rfl

/-- All that `allocate` can do. -/
theorem allocate_spec (s : State) (p : TimingProfile) :
    (s.cfg.bufCapacity < bytesNeeded p ∧ allocate s p = .error s.release)
      ∨ (bytesNeeded p ≤ s.cfg.bufCapacity ∧ allocate s p = .ok (s.release.carve p)) := by
  unfold allocate
  split
  · exact .inl ⟨by assumption, rfl⟩
  · exact .inr ⟨by omega, rfl⟩

/-! ## The resolve unit -/

/-- What `resolve` answers: the row is there, its numbers are not zero, and every check passed. -/
theorem resolve_spec {c : Config} {d : Half} {p : TimingProfile} (h : resolve c d = .ok p) :
    ∃ row, timingRow c d = some row ∧ row.outLen ≠ 0 ∧ row.tsf ≠ 0 ∧ row.outLen % row.tsf = 0
      ∧ 1 ≤ holdCount c d row.outLen ∧ 1 ≤ row.tsf * holdCount c d row.outLen
      ∧ c.settleCount ≤ row.tsf * holdCount c d row.outLen
      ∧ countsOverflow c p = false ∧ notGranular c p = false
      ∧ p = profileOf c row.outLen row.tsf (holdCount c d row.outLen) := by
  unfold resolve at h
  cases hr : timingRow c d with
  | none => rw [hr] at h; cases h
  | some row =>
    rw [hr] at h
    simp only at h
    split at h
    · cases h
    · split at h
      · cases h
      · unfold resolveRow at h
        split at h
        · cases h
        · split at h
          · cases h
          · split at h
            · cases h
            · split at h
              · cases h
              · split at h
                · cases h
                · rename_i h0 h1 h2 h3 h4 h5 h6
                  cases h
                  refine ⟨row, rfl, h0, h1, by omega, by omega, by omega, by omega, ?_, ?_, rfl⟩
                  · simpa using h5
                  · simpa using h6

/-! ## The generate unit -/

/-- The walk answers one code for each sample. -/
theorem rampWalk_length {c : Config} {lo hi : Rat} {n left i k : Nat} {vs : List Half}
    (h : rampWalk c lo hi n left i k = .ok vs) : vs.length = left := by
  induction left generalizing i k vs with
  | zero => cases h; rfl
  | succ left ih =>
    rw [rampWalk] at h
    split at h
    · cases h
    · split at h
      · cases h
      · rename_i hw
        cases h
        simp [ih hw]

/-- A checked code lies in `[0, MAX_CODE]`. -/
theorem checkedCode_le {c : Config} {o : SampleOutcome} {v : Half} (h : checkedCode c o = .ok v) :
    v.toNat ≤ c.maxCode := by
  cases o with
  | below => cases h
  | exhausted => cases h
  | code z =>
    simp only [checkedCode] at h
    split at h
    · cases h
    · rename_i hz
      cases h
      simp only [BitVec.toNat_ofInt]
      omega

/-- Every code of a walk lies in `[0, MAX_CODE]`. -/
theorem rampWalk_le {c : Config} {lo hi : Rat} {n left i k : Nat} {vs : List Half}
    (h : rampWalk c lo hi n left i k = .ok vs) : ∀ v ∈ vs, v.toNat ≤ c.maxCode := by
  induction left generalizing i k vs with
  | zero => cases h; simp
  | succ left ih =>
    rw [rampWalk] at h
    split at h
    · cases h
    · rename_i hc
      split at h
      · cases h
      · rename_i hw
        cases h
        intro v hv
        rcases List.mem_cons.1 hv with rfl | hv
        · exact checkedCode_le hc
        · exact ih hw v hv

/-- A ramp of `n` samples has `n` codes, each in `[0, MAX_CODE]`. -/
theorem rampCodes_spec {c : Config} {fs fe : F32} {n : Nat} {vs : List Half}
    (h : rampCodes c fs fe n = .ok vs) : vs.length = n ∧ ∀ v ∈ vs, v.toNat ≤ c.maxCode := by
  unfold rampCodes at h
  split at h
  · split at h
    · cases h
    · rename_i ws hw
      cases h
      have hl := rampWalk_length hw
      have hm := rampWalk_le hw
      split <;> simp_all
  · cases h

/-- All that `generate` can answer: an error with the state as it was, or the codes written to the region. -/
theorem generate_spec {s : State} {len : Nat} {fs fe : F32} {n off : Nat} {r : RampResult}
    (h : generate s len fs fe n off = .ok r) :
    (∃ e, rampCodes s.cfg fs fe n = .error e ∧ r = .rangeError e s)
      ∨ (∃ vs t, rampCodes s.cfg fs fe n = .ok vs ∧ writeElements s s.outBuf len off vs = .ok t ∧ r = .done t) := by
  unfold generate at h
  split at h
  · rename_i e he
    cases h
    exact .inl ⟨e, he, rfl⟩
  · rename_i vs hv
    split at h
    · cases h
    · rename_i t ht
      cases h
      exact .inr ⟨vs, t, hv, ht, rfl⟩

/-! ## The tick -/

/-- What the output driver's part of a tick answers. -/
theorem tickOutput_spec {s t : State} (h : tickOutput s = .ok t) :
    s.odIdx.toNat < s.outBuf.len.toNat ∧ 0 < s.odDesc.length.toNat
      ∧ t = { s with
          odLast := some (elementAt s s.outBuf s.odIdx.toNat)
          odIdx := BitVec.ofNat 32 ((s.odIdx.toNat + 1) % s.odDesc.length.toNat)
          history := s.history ++ [Event.odOut (elementAt s s.outBuf s.odIdx.toNat)] } := by
  unfold tickOutput at h
  split at h
  · cases h
  · rename_i v hv
    have hv := readElement_spec hv
    split at h
    · cases h
    · rename_i i hi
      have hi := cursorMod_spec hi
      cases h
      refine ⟨hv.1, hi.1, ?_⟩
      rw [hv.2.2.2, hi.2]

/-- What the sampler's part of a tick answers. -/
theorem tickSample_spec {s t : State} {adc : Half} (h : tickSample s adc = .ok t) :
    s.smpIdx.toNat < s.inBuf.len.toNat ∧ elementAddr s.inBuf s.smpIdx.toNat % 2 = 0
      ∧ elementAddr s.inBuf s.smpIdx.toNat + 2 ≤ s.cfg.bufCapacity
      ∧ 0 < s.smpDesc.length.toNat ∧ 0 < s.smpDesc.length.toNat / 2
      ∧ t = { s with
          buf := Memory.write s.buf (elementAddr s.inBuf s.smpIdx.toNat) (bytesOfHalves [adc])
          tmPhase := 0
          smpIdx := BitVec.ofNat 32 ((s.smpIdx.toNat + 1) % s.smpDesc.length.toNat)
          irq := s.irq || decide ((s.smpIdx.toNat + 1) % s.smpDesc.length.toNat
            % (s.smpDesc.length.toNat / 2) = 0) } := by
  unfold tickSample at h
  split at h
  · cases h
  · rename_i s' hw
    rcases writeElements_spec hw with ⟨hn, _⟩ | ⟨_, h1, h2, h3, rfl⟩
    · cases hn
    · split at h
      · cases h
      · rename_i i hi
        have hi := cursorMod_spec hi
        split at h
        · cases h
        · rename_i r hr
          have hr := cursorMod_spec hr
          cases h
          have hlt : (s.smpIdx.toNat + 1) % s.smpDesc.length.toNat < 4294967296 :=
            lt_of_lt_of_le (Nat.mod_lt _ hi.1) (by have := s.smpDesc.length.isLt; omega)
          have hin : i.toNat = (s.smpIdx.toNat + 1) % s.smpDesc.length.toNat := by
            rw [hi.2, BitVec.toNat_ofNat]; omega
          have hlt2 : i.toNat % (s.smpDesc.length.toNat / 2) < 4294967296 :=
            lt_of_le_of_lt (Nat.mod_le _ _) (by have := i.isLt; omega)
          have hrz : (r = 0) ↔ i.toNat % (s.smpDesc.length.toNat / 2) = 0 := by
            rw [hr.2, ← BitVec.toNat_inj, BitVec.toNat_ofNat]
            simp
            omega
          refine ⟨by simpa using h1, h2, by simpa using h3, hi.1, hr.1, ?_⟩
          simp only [hrz, ← hi.2, hin]

/-! ## The step -/

/-- Everything a step can do: an agent's turn, decided by the schedule or by the free choice. -/
theorem step_cases {s : State} {o : Host.Outcome State Fault Refusal} (h : step s = o) :
    (configOk s.cfg = false ∧ o = .refused .illFormedConfiguration)
      ∨ (configOk s.cfg = true ∧ ∃ t ts, s.turns = t :: ts ∧ o = takeTurn t { s with turns := ts })
      ∨ (configOk s.cfg = true ∧ s.turns = [] ∧ o = takeTurn (Config.freeTurn s.draws) s.drawn) := by
  subst h
  unfold step
  split
  · rename_i hc
    split
    · rename_i t ts ht
      exact .inr (.inl ⟨hc, t, ts, ht, rfl⟩)
    · rename_i ht
      exact .inr (.inr ⟨hc, ht, rfl⟩)
  · rename_i hc
    exact .inl ⟨by simpa using hc, rfl⟩

/-- What a decoded command does at the sequencer's turn. -/
theorem takeTurn_command_instr {s : State} {i : Instr} {rest : List Word}
    (h : decodeCommand s.cmd = .instr i rest) : takeTurn .command s = exec i { s with cmd := rest } := by
  simp [takeTurn, fetchCommand, h, runFetched]

/-- What an illegal command does at the sequencer's turn. -/
theorem takeTurn_command_illegal {s : State} {why : IllegalSub} {rest : List Word}
    (h : decodeCommand s.cmd = .illegal why rest) :
    takeTurn .command s = .next (State.raise { s with cmd := rest } (.illegalCommand why)) := by
  simp [takeTurn, fetchCommand, h, runFetched]

/-- A sequencer's turn with no whole command passes. -/
theorem takeTurn_command_waiting {s : State} (h : decodeCommand s.cmd = .waiting) :
    takeTurn .command s = .next s := by
  simp [takeTurn, fetchCommand, h, runFetched]

/-- A framer's turn with nothing placed passes. -/
theorem takeTurn_framer_nothing {s : State} (h : s.frameReq = []) : takeTurn .framer s = .next s := by
  simp [takeTurn, fetchFrame, h, runFetched]

end Sys2Proof.Machine
end

