-- ==== Sys2Proof/Laws/PerInstr.lean ====
section
/-! SUPPORT. Facts about every instruction as syntax, one lemma for each constructor. `EncodedLength`: an encoding is as
long as its own first word or its own size field says (30_encoding.md rules R112, R115, R140). -/

namespace Sys2Proof.Laws

/-- The words of a command are as many as its header word asks for; the bytes of a frame are 8 more than its
payload-size field says. -/
def EncodedLength.Statement (i : Instr) : Prop :=
  wellFormed i = true → ∀ magic : Word,
    match encode magic i with
    | .words ws => ∃ w0 ops, ws = w0 :: ops ∧ ws.length = commandLength w0
    | .bytes bs => bs.length = 8 + (read16 bs 4).toNat

/-- A frame whose payload fits has the length its size field says. -/
theorem frameImage_encodedLength (magic : Word) (type : Half) {pl : List Byte} (h : pl.length ≤ 65535) :
    (frameImage magic type pl).length = 8 + (read16 (frameImage magic type pl) 4).toNat := by
  rw [read16_frameImage, BitVec.toNat_ofNat, Nat.mod_eq_of_lt (by omega)]
  simp [frameImage]
  omega

theorem EncodedLength.configure (duration gain : Half) (fStart fStop fReturn : F32) :
    EncodedLength.Statement (.configure duration gain fStart fStop fReturn) := by
  intro _ _
  exact ⟨_, _, rfl, by simp [commandLength]⟩

theorem EncodedLength.start : EncodedLength.Statement .start := by
  intro _ _
  exact ⟨_, _, rfl, by simp [commandLength]⟩

theorem EncodedLength.stop : EncodedLength.Statement .stop := by
  intro _ _
  exact ⟨_, _, rfl, by simp [commandLength]⟩

theorem EncodedLength.setTxEnable (enable : Bool) : EncodedLength.Statement (.setTxEnable enable) := by
  intro _ _
  exact ⟨_, _, rfl, by simp [commandLength]⟩

theorem EncodedLength.readStatus : EncodedLength.Statement .readStatus := by
  intro _ _
  exact ⟨_, _, rfl, by simp [commandLength]⟩

theorem EncodedLength.resolve (duration : Half) : EncodedLength.Statement (.resolve duration) := by
  intro _ _
  exact ⟨_, _, rfl, by simp [commandLength]⟩

theorem EncodedLength.generate (count offset : Half) (fStart fStop : F32) :
    EncodedLength.Statement (.generate count offset fStart fStop) := by
  intro _ _
  exact ⟨_, _, rfl, by simp [commandLength]⟩

theorem EncodedLength.emitPulse : EncodedLength.Statement .emitPulse := by
  intro _ _
  exact ⟨_, _, rfl, by simp [commandLength]⟩

theorem EncodedLength.sendHeartbeat : EncodedLength.Statement .sendHeartbeat := by
  intro _ _
  exact ⟨_, _, rfl, by simp [commandLength]⟩

theorem EncodedLength.sendLog (category severity : Half) (text : List Byte) :
    EncodedLength.Statement (.sendLog category severity text) := by
  intro h _
  have ht : text.length % 65536 = text.length := Nat.mod_eq_of_lt (by simp [wellFormed, textFits] at h; omega)
  exact ⟨_, _, rfl, by simp [commandLength, ht]; omega⟩

theorem EncodedLength.sendReply (status : Half) (text : List Byte) :
    EncodedLength.Statement (.sendReply status text) := by
  intro h _
  have ht : text.length % 65536 = text.length := Nat.mod_eq_of_lt (by simp [wellFormed, textFits] at h; omega)
  exact ⟨_, _, rfl, by simp [commandLength, ht]; omega⟩

theorem EncodedLength.frameHeartbeat (timestamp : Word) : EncodedLength.Statement (.frameHeartbeat timestamp) := by
  intro _ magic
  exact frameImage_encodedLength magic 0 (by simp [heartbeatPayload])

theorem EncodedLength.frameLog (category severity : Half) (text : List Byte) :
    EncodedLength.Statement (.frameLog category severity text) := by
  intro h magic
  refine frameImage_encodedLength magic 1 ?_
  simp [wellFormed, payloadFits] at h
  simp [logPayload]
  omega

theorem EncodedLength.frameReply (status : Half) (text : List Byte) :
    EncodedLength.Statement (.frameReply status text) := by
  intro h magic
  refine frameImage_encodedLength magic 2 ?_
  simp [wellFormed, payloadFits] at h
  simp [replyPayload]
  omega

theorem EncodedLength.framePulse (seq timestamp status : Word) (gain duration : Half)
    (fStart fStop fReturn : F32) (samples : List Half) :
    EncodedLength.Statement (.framePulse seq timestamp status gain duration fStart fStop fReturn samples) := by
  intro h magic
  refine frameImage_encodedLength magic 3 ?_
  simp [wellFormed, payloadFits] at h
  simp [pulsePayload, Machine.length_bytesOfHalves]
  omega

end Sys2Proof.Laws
end

