-- ==== Sys2Proof/Laws/Step.lean ====
section
/-! SUPPORT. What an instruction, a tick and a step can do, said once: later proofs split on these instead of unfolding the
meanings. -/

namespace Sys2Proof.Machine

/-! ## The output buffer -/

/-- What a write to the output buffer leaves: all but the memory as it was. -/
theorem writeElements_frame {s t : State} {b : SampleBuf} {len i : Nat} {vs : List Half}
    (h : writeElements s b len i vs = .ok t) :
    t = { s with buf := t.buf } ∧ (Memory.wf s.buf → Memory.wf t.buf) := by
  rcases writeElements_spec h with ⟨_, rfl⟩ | ⟨_, _, _, _, rfl⟩
  · exact ⟨rfl, id⟩
  · exact ⟨rfl, fun hw => Memory.write_wf hw _ _⟩

/-- The state a fill of the output buffer ends in. -/
def RampResult.state : RampResult → State
  | .done s => s
  | .rangeError _ s => s

/-- However a fill of the output buffer ends, all but the memory is as it was. -/
theorem generate_frame {s : State} {len : Nat} {fs fe : F32} {n off : Nat} {r : RampResult}
    (h : generate s len fs fe n off = .ok r) :
    r.state = { s with buf := r.state.buf } ∧ (Memory.wf s.buf → Memory.wf r.state.buf) := by
  rcases generate_spec h with ⟨_, _, rfl⟩ | ⟨_, _, _, hw, rfl⟩
  · exact ⟨rfl, id⟩
  · exact writeElements_frame hw

/-- However the filling of the RampTable ends, all but the memory is as it was. -/
theorem fillRamp_frame {s : State} {q : Request} {len : Nat} {r : RampResult} (h : fillRamp s q len = .ok r) :
    r.state = { s with buf := r.state.buf } ∧ (Memory.wf s.buf → Memory.wf r.state.buf) := by
  unfold fillRamp at h
  split at h
  · exact generate_frame h
  · split at h
    · rename_i s' hg
      have h1 := generate_frame hg
      have h2 := generate_frame h
      simp only [RampResult.state] at h1
      refine ⟨?_, fun hw => h2.2 (h1.2 hw)⟩
      rw [h2.1, h1.1]
    · cases h
      exact generate_frame ‹_›
    · cases h

/-! ## The send unit -/

/-- However `send` ends, only `SCR` and the history may differ, and the history by a frame alone. -/
theorem send_frame (s : State) (type : Half) (pl : List Byte) :
    ∃ m hs, (send s type pl).2 = { s with scr := m, history := s.history ++ hs }
      ∧ (∀ e ∈ hs, ∃ F, e = Event.frame F) ∧ (Memory.wf s.scr → Memory.wf m) := by
  rcases send_spec s type pl with ⟨_, e⟩ | ⟨_, _, e⟩ | ⟨_, _, e⟩
  · exact ⟨s.scr, [], by rw [e]; simp, by simp, id⟩
  · exact ⟨s.scr, [], by rw [e]; simp, by simp, id⟩
  · exact ⟨_, [_], by rw [e], by simp, fun hw => Memory.write_wf hw _ _⟩

/-! ## Instructions -/

/-- Everything GENERATE can do: its response, and the memory. -/
theorem execGenerate_frame {n off : Half} {fs fe : F32} {s t : State} (h : execGenerate n off fs fe s = .next t) :
    ∃ m r, t = { s with buf := m, resp := s.resp ++ [r] } ∧ (Memory.wf s.buf → Memory.wf m) := by
  unfold execGenerate at h
  split at h
  · cases h
    exact ⟨s.buf, _, rfl, id⟩
  · split at h
    · cases h
      exact ⟨s.buf, _, rfl, id⟩
    · split at h
      · cases h
      · rename_i hg
        cases h
        have h1 := generate_frame hg
        simp only [RampResult.state] at h1
        exact ⟨_, _, by rw [h1.1]; rfl, h1.2⟩
      · rename_i hg
        cases h
        have h1 := generate_frame hg
        simp only [RampResult.state] at h1
        exact ⟨_, _, by rw [h1.1]; rfl, h1.2⟩

/-- Everything EMIT_PULSE can do. -/
theorem execEmitPulse_frame {s t : State} (h : execEmitPulse s = .next t) :
    ∃ le dr m hs r, t = { s with
          lastEmitted := le, draws := dr, scr := m
          history := s.history ++ hs, resp := s.resp ++ [r] }
      ∧ (∀ e ∈ hs, ∃ F, e = Event.frame F) ∧ (Memory.wf s.scr → Memory.wf m) := by
  unfold execEmitPulse at h
  split at h
  · cases h
    exact ⟨s.lastEmitted, s.draws, s.scr, [], _, by rw [List.append_nil]; rfl, by simp, id⟩
  · split at h
    · cases h
      exact ⟨s.lastEmitted, s.draws, s.scr, [], _, by rw [List.append_nil]; rfl, by simp, id⟩
    · split at h
      · cases h
      · cases h
        obtain ⟨m, hs, h1, h2, h3⟩ := send_frame s.consumePulse 3 (statePulsePayload s ‹_›)
        exact ⟨_, _, m, hs, _, by rw [sendAndRespond, h1]; rfl, h2, h3⟩

/-- Everything an instruction other than CONFIGURE, START and STOP can do: `TX_EN`, `LAST_EMITTED_SEQ`, the memories,
frames in the history, responses and draws, and no other piece of state. -/
theorem exec_frame {i : Instr} {s t : State} (h : exec i s = .next t) (hc : isConfigure i = false)
    (h1 : i ≠ .start) (h2 : i ≠ .stop) :
    ∃ tx le b m hs r dr, t = { s with
          txEn := tx, lastEmitted := le, buf := b, scr := m
          history := s.history ++ hs, resp := s.resp ++ r, draws := dr }
      ∧ (∀ e ∈ hs, ∃ F, e = Event.frame F) ∧ (Memory.wf s.buf → Memory.wf b) ∧ (Memory.wf s.scr → Memory.wf m) := by
  cases i with
  | configure => cases hc
  | start => exact absurd rfl h1
  | stop => exact absurd rfl h2
  | setTxEnable e =>
    cases h
    exact ⟨e, s.lastEmitted, s.buf, s.scr, [], [_], s.draws, by rw [List.append_nil]; rfl, by simp, id, id⟩
  | readStatus =>
    cases h
    exact ⟨s.txEn, s.lastEmitted, s.buf, s.scr, [], [_], s.draws, by rw [List.append_nil]; rfl, by simp, id, id⟩
  | resolve d =>
    simp only [exec, execResolve] at h
    split at h <;> cases h <;>
      exact ⟨s.txEn, s.lastEmitted, s.buf, s.scr, [], [_], s.draws, by rw [List.append_nil]; rfl, by simp, id, id⟩
  | generate n off fs fe =>
    obtain ⟨m, r, rfl, hw⟩ := execGenerate_frame h
    exact ⟨s.txEn, s.lastEmitted, m, s.scr, [], [r], s.draws, by rw [List.append_nil], by simp, hw, id⟩
  | emitPulse =>
    obtain ⟨le, dr, m, hs, r, rfl, h3, hw⟩ := execEmitPulse_frame h
    exact ⟨s.txEn, le, s.buf, m, hs, [r], dr, rfl, h3, id, hw⟩
  | sendHeartbeat =>
    cases h
    obtain ⟨m, hs, h3, h4, hw⟩ := send_frame s.drawn 0 (heartbeatPayload (Config.cycleRead s.draws))
    exact ⟨s.txEn, s.lastEmitted, s.buf, m, hs, [_], _, by rw [sendAndRespond, h3]; rfl, h4, id, hw⟩
  | sendLog c v t =>
    cases h
    obtain ⟨m, hs, h3, h4, hw⟩ := send_frame s 1 (logPayload c v t)
    exact ⟨s.txEn, s.lastEmitted, s.buf, m, hs, [_], s.draws, by rw [sendAndRespond, h3]; rfl, h4, id, hw⟩
  | sendReply v t =>
    cases h
    obtain ⟨m, hs, h3, h4, hw⟩ := send_frame s 2 (replyPayload v t)
    exact ⟨s.txEn, s.lastEmitted, s.buf, m, hs, [_], s.draws, by rw [sendAndRespond, h3]; rfl, h4, id, hw⟩
  | frameHeartbeat ts =>
    cases h
    obtain ⟨m, hs, h3, h4, hw⟩ := send_frame s 0 (heartbeatPayload ts)
    exact ⟨s.txEn, s.lastEmitted, s.buf, m, hs, [], s.draws, by rw [h3, List.append_nil], h4, id, hw⟩
  | frameLog c v t =>
    cases h
    obtain ⟨m, hs, h3, h4, hw⟩ := send_frame s 1 (logPayload c v t)
    exact ⟨s.txEn, s.lastEmitted, s.buf, m, hs, [], s.draws, by rw [h3, List.append_nil], h4, id, hw⟩
  | frameReply v t =>
    cases h
    obtain ⟨m, hs, h3, h4, hw⟩ := send_frame s 2 (replyPayload v t)
    exact ⟨s.txEn, s.lastEmitted, s.buf, m, hs, [], s.draws, by rw [h3, List.append_nil], h4, id, hw⟩
  | framePulse seq ts st g d fs fe fr v =>
    cases h
    obtain ⟨m, hs, h3, h4, hw⟩ := send_frame s 3 (pulsePayload seq ts st g d fs fe fr v)
    exact ⟨s.txEn, s.lastEmitted, s.buf, m, hs, [], s.draws, by rw [h3, List.append_nil], h4, id, hw⟩

/-- Everything CONFIGURE can do, from any state: roll back before the allocation, on the allocation, or after the ramp,
or bind. -/
theorem execConfigure_cases {d g : Half} {fs fe fr : F32} {s t : State} (h : execConfigure d g fs fe fr s = .next t) :
    (∃ st, st ≠ .ok ∧ t = s.configureEntry.enterIdle.raise st)
      ∨ t = s.configureEntry.release.enterIdle.raise .allocationError
      ∨ (∃ p m e, resolve s.cfg d = .ok p ∧ bytesNeeded p ≤ s.cfg.bufCapacity
        ∧ t = (State.enterIdle { s.configureEntry.release.carve p with buf := m }).raise (.rangeError e))
      ∨ (∃ p m, resolve s.cfg d = .ok p ∧ bytesNeeded p ≤ s.cfg.bufCapacity
        ∧ fillRamp (s.configureEntry.release.carve p) ⟨true, d, g, fs, fe, fr⟩ p.outLen
          = .ok (.done { s.configureEntry.release.carve p with buf := m })
        ∧ t = ((State.programDescriptors { s.configureEntry.release.carve p with buf := m } p).bind
            ⟨true, d, g, fs, fe, fr⟩ p).respond .ok []) := by
  unfold execConfigure configureChecked at h
  split at h
  · cases h
    exact .inl ⟨_, by simp, rfl⟩
  · split at h
    · cases h
      exact .inl ⟨_, by simp, rfl⟩
    · rename_i p hp
      simp only [State.configureEntry_cfg] at hp
      unfold configureAllocate at h
      rcases allocate_spec s.configureEntry p with ⟨_, ha⟩ | ⟨hn, ha⟩
      · rw [ha] at h
        cases h
        exact .inr (.inl rfl)
      · rw [ha] at h
        simp only [State.configureEntry_cfg] at hn
        simp only [configureRamp] at h
        split at h
        · cases h
        · rename_i hf
          cases h
          have h1 := (fillRamp_frame hf).1
          simp only [RampResult.state] at h1
          exact .inr (.inr (.inl ⟨p, _, _, hp, hn, by rw [← h1]⟩))
        · rename_i hf
          cases h
          have h1 := (fillRamp_frame hf).1
          simp only [RampResult.state] at h1
          exact .inr (.inr (.inr ⟨p, _, hp, hn, by rw [← h1]; exact hf, by rw [← h1]⟩))

/-! ## The tick -/

/-- Everything a tick can do, from any state. -/
theorem tickStep_frame {s t : State} {adc : Half} (h : tickStep s adc = .ok t) :
    ∃ code oi b ph si q, t = { s with
          odLast := some code, odIdx := oi, history := s.history ++ [Event.odOut code]
          buf := b, tmPhase := ph, smpIdx := si, irq := q }
      ∧ code = elementAt s s.outBuf s.odIdx.toNat ∧ (Memory.wf s.buf → Memory.wf b) := by
  unfold tickStep at h
  split at h
  · cases h
  · rename_i ho
    obtain ⟨_, _, rfl⟩ := tickOutput_spec ho
    split at h
    · obtain ⟨_, _, _, _, _, rfl⟩ := tickSample_spec h
      exact ⟨_, _, _, _, _, _, rfl, rfl, fun hw => Memory.write_wf hw _ _⟩
    · cases h
      exact ⟨_, _, s.buf, _, s.smpIdx, s.irq, rfl, rfl, id⟩

/-! ## Turns and steps -/

/-- Everything a turn can do: pass, move words between `CMD` and `RESP`, execute an instruction, tick, run the handler, or
reset. -/
theorem takeTurn_cases {s t : State} {tn : Turn} (h : takeTurn tn s = .next t) :
    t = s
      ∨ (∃ c r, t = { s with cmd := c, resp := r })
      ∨ (∃ i c f, (tn = .command ∨ tn = .framer) ∧ exec i { s with cmd := c, frameReq := f } = .next t)
      ∨ (∃ adc, tn = .tick adc ∧ s.mode = .running ∧ tickStep s adc = .ok t)
      ∨ (∃ w, tn = .handler w ∧ s.irq = true ∧ t = s.takeInterrupt w)
      ∨ (∃ b, tn = .reset b ∧ t = s.resetStep b) := by
  cases tn with
  | deliver w =>
    simp only [takeTurn, deliverTurn] at h
    split at h
    · cases h
    · cases h
      exact .inr (.inl ⟨_, s.resp, rfl⟩)
  | command =>
    simp only [takeTurn, fetchCommand] at h
    split at h
    · cases h
      exact .inl rfl
    · cases h
      exact .inr (.inl ⟨_, _, rfl⟩)
    · exact .inr (.inr (.inl ⟨_, _, s.frameReq, .inl rfl, h⟩))
  | tick adc =>
    simp only [takeTurn, tickTurn] at h
    split at h
    · rename_i hm
      split at h
      · cases h
      · rename_i ht
        cases h
        exact .inr (.inr (.inr (.inl ⟨adc, rfl, hm, ht⟩)))
    · cases h
      exact .inl rfl
  | handler w =>
    simp only [takeTurn, handlerTurn] at h
    split at h
    · rename_i hi
      cases h
      exact .inr (.inr (.inr (.inr (.inl ⟨w, rfl, hi, rfl⟩))))
    · cases h
      exact .inl rfl
  | framer =>
    simp only [takeTurn, fetchFrame] at h
    split at h
    · cases h
      exact .inl rfl
    · split at h
      · cases h
      · exact .inr (.inr (.inl ⟨_, s.cmd, [], .inr rfl, h⟩))
  | reset b =>
    cases h
    exact .inr (.inr (.inr (.inr (.inr ⟨b, rfl, rfl⟩))))

/-- A step that answers is a turn of the next agent, from the state with the schedule or the counter of draws moved on. -/
theorem step_next {s t : State} (h : step s = .next t) :
    configOk s.cfg = true ∧ ∃ ts dr, takeTurn s.nextTurn { s with turns := ts, draws := dr } = .next t := by
  rcases step_cases h with ⟨_, ho⟩ | ⟨hc, tn, ts, ht, ho⟩ | ⟨hc, ht, ho⟩
  · cases ho
  · exact ⟨hc, ts, s.draws, by rw [State.nextTurn, ht]; exact ho.symm⟩
  · refine ⟨hc, s.turns, s.draws + 1, ?_⟩
    have hn : s.nextTurn = Config.freeTurn s.draws := by rw [State.nextTurn, ht]
    rw [hn]
    exact ho.symm

end Sys2Proof.Machine
end

