-- ==== Sys2Proof/Tests/Slice0.lean ====
section
/-! SUPPORT. Small tests, their expected results taken from 95_test_vectors.md or computed by hand from the rules, and for each
statement of Obligations.lean that has hypotheses a witness that meets them. -/

namespace Sys2Proof.Tests

open Sys2Proof Sys2Proof.Machine

-- One theorem after the other: the many small kernel evaluations below would otherwise each hold a thread.
set_option Elab.async false

/-! ## Helpers -/

/-- The state an outcome goes on with, or a given state. -/
def after (o : Host.Outcome State Fault Refusal) (d : State) : State :=
  match o with
  | .next s => s
  | .fault _ => d
  | .refused _ => d

/-- The outcome is a next state. -/
def goesOn (o : Host.Outcome State Fault Refusal) : Bool :=
  match o with
  | .next _ => true
  | .fault _ => false
  | .refused _ => false

/-- The refusal of an outcome. -/
def refusal (o : Host.Outcome State Fault Refusal) : Option Refusal :=
  match o with
  | .next _ => none
  | .fault _ => none
  | .refused r => some r

theorem eq_next {o : Host.Outcome State Fault Refusal} (d : State) (h : goesOn o = true) : o = .next (after o d) := by
  cases o
  · rfl
  · cases h
  · cases h

/-- The invariant, evaluated part by part. -/
def invCheck (s : State) : Bool :=
  configOk s.cfg && decide s.EnablesAgree && decide s.MemoriesOk && decide (s.mode = .idle → s.Unbound)
    && decide (s.mode ≠ .idle → s.Bound) && decide (s.mode = .running → s.CursorsOk)

theorem inv_of_check {s : State} (h : invCheck s = true) : s.Inv := by
  simp only [invCheck, Bool.and_eq_true, decide_eq_true_eq] at h
  exact ⟨h.1.1.1.1.1, h.1.1.1.1.2, h.1.1.1.2, h.1.1.2, h.1.2, h.2⟩

/-- Reset, then `CONFIGURE 1, 7, 100.0, 200.0, 0.0` (TC1). -/
def configured : State :=
  after (exec (.configure 1 7 0x42C80000#32 0x43480000#32 0#32) State.reset) State.reset

/-- After that, START. -/
def running : State :=
  after (exec .start configured) configured

/-- Stopped again, with one pulse pending, as in program P1 but with the cursors set by hand. -/
def pending : State :=
  { configured with seq := 1, ts := 0x3E8, parity := true, smpIdx := 4 }

/-- The running block seven ticks on: the next tick ends the first half (§3.6). -/
def lastOfHalf : State :=
  { running with odIdx := 7, smpIdx := 3, tmPhase := 1 }

/-- A state with the agent whose turn is next. -/
def turnOf (t : Turn) (s : State) : State :=
  { s with turns := [t] }

/-- A state with a scratch region of `n` bytes. -/
def withScratch (n : Nat) (s : State) : State :=
  { s with cfg := { s.cfg with scratchCapacity := n } }

/-- The elements of the output buffer. -/
def codes (s : State) : List Nat :=
  (List.range s.outBuf.len.toNat).map fun i => (elementAt s s.outBuf i).toNat

/-! ## WellFormed: each check refuses an ill-formed term -/

theorem test_wf_sendLog_text : wellFormed (.sendLog 0 0 (List.replicate 65536 0)) = false := by
  rw [wellFormed, textFits, List.length_replicate]
  rfl

theorem test_wf_sendReply_text : wellFormed (.sendReply 0 (List.replicate 65536 0)) = false := by
  rw [wellFormed, textFits, List.length_replicate]
  rfl

theorem test_wf_frameLog_payload : wellFormed (.frameLog 0 0 (List.replicate 65532 0)) = false := by
  rw [wellFormed, payloadFits, List.length_replicate]
  rfl

theorem test_wf_frameReply_payload : wellFormed (.frameReply 0 (List.replicate 65534 0)) = false := by
  rw [wellFormed, payloadFits, List.length_replicate]
  rfl

theorem test_wf_framePulse_payload :
    wellFormed (.framePulse 0 0 0 0 0 0 0 0 (List.replicate 32752 0)) = false := by
  rw [wellFormed, payloadFits, List.length_replicate]
  rfl

theorem test_wf_boundaries :
    wellFormed (.sendLog 0 0 (List.replicate 65535 0)) = true
      ∧ wellFormed (.frameLog 0 0 (List.replicate 65531 0)) = true
      ∧ wellFormed (.frameReply 0 (List.replicate 65533 0)) = true
      ∧ wellFormed (.framePulse 0 0 0 0 0 0 0 0 (List.replicate 32751 0)) = true := by
  simp only [wellFormed, textFits, payloadFits, List.length_replicate]
  decide

/-! ## Decoding: every constructor's word, from 95_test_vectors.md §3.1 and §3.7 -/

theorem test_decode_configure :
    decodeCommand [0x00010001#32, 0x00000007#32, 0x42C80000#32, 0x43480000#32, 0x00000000#32]
      = .instr (.configure 1 7 0x42C80000#32 0x43480000#32 0#32) [] := by decide

theorem test_decode_start : decodeCommand [0x00000002#32] = .instr .start [] := by decide

theorem test_decode_stop : decodeCommand [0x00000003#32] = .instr .stop [] := by decide

theorem test_decode_setTxEnable : decodeCommand [0x00010004#32] = .instr (.setTxEnable true) [] := by decide

theorem test_decode_readStatus : decodeCommand [0x00000005#32] = .instr .readStatus [] := by decide

theorem test_decode_resolve : decodeCommand [0x00080006#32] = .instr (.resolve 8) [] := by decide

theorem test_decode_generate :
    decodeCommand [0x00050007#32, 0x00000003#32, 0x42C80000#32, 0x43480000#32]
      = .instr (.generate 5 3 0x42C80000#32 0x43480000#32) [] := by decide

theorem test_decode_emitPulse : decodeCommand [0x00000008#32] = .instr .emitPulse [] := by decide

theorem test_decode_sendHeartbeat : decodeCommand [0x00000009#32] = .instr .sendHeartbeat [] := by decide

/-- "abcde": four words in all, the three padding bytes not checked. -/
theorem test_decode_sendLog :
    decodeCommand [0x0005000A#32, 0x00010002#32, 0x64636261#32, 0xFFFFFF65#32, 0x00000002#32]
      = .instr (.sendLog 2 1 [0x61, 0x62, 0x63, 0x64, 0x65]) [0x00000002#32] := by decide

theorem test_decode_sendReply :
    decodeCommand [0x0002000B#32, 0x00000000#32, 0x00004B4F#32] = .instr (.sendReply 0 [0x4F, 0x4B]) [] := by decide

theorem test_decode_illegal :
    decodeCommand [0x00000000#32] = .illegal .unknownOpcode []
      ∧ decodeCommand [0x0000000C#32] = .illegal .unknownOpcode []
      ∧ decodeCommand [0x000000FF#32] = .illegal .unknownOpcode []
      ∧ decodeCommand [0x00000102#32] = .illegal .reservedBits []
      ∧ decodeCommand [0x00010002#32] = .illegal .reservedBits []
      ∧ decodeCommand [0x00020004#32] = .illegal .badImmediate []
      ∧ decodeCommand [0x00020104#32] = .illegal .reservedBits []
      ∧ decodeCommand [0x0000000B#32, 0x00010000#32] = .illegal .reservedBits []
      ∧ decodeCommand [0x00000007#32, 0x00010000#32, 0x42C80000#32, 0x43480000#32]
        = .illegal .reservedBits [] := by decide

theorem test_decode_frameHeartbeat :
    decodeFrame 0x52414452#32 [0x52, 0x44, 0x41, 0x52, 0x04, 0, 0, 0, 0x78, 0x56, 0x34, 0x12]
      = .ok (.frameHeartbeat 0x12345678#32) := by decide

theorem test_decode_frameLog :
    decodeFrame 0x52414452#32 [0x52, 0x44, 0x41, 0x52, 0x06, 0, 0x01, 0, 0x02, 0, 0x01, 0, 0x68, 0x69]
      = .ok (.frameLog 2 1 [0x68, 0x69]) := by decide

theorem test_decode_frameReply :
    decodeFrame 0x52414452#32 [0x52, 0x44, 0x41, 0x52, 0x04, 0, 0x02, 0, 0, 0, 0x4f, 0x4b]
      = .ok (.frameReply 0 [0x4f, 0x4b]) := by decide

/-- The Pulse frame of rule R285's example. -/
def pulseBytes : List Byte :=
  [0x52, 0x44, 0x41, 0x52, 0x28, 0x00, 0x03, 0x00, 0x20, 0x00, 0x08, 0x00, 0x01, 0x00, 0x00, 0x00]
    ++ [0xe8, 0x03, 0x00, 0x00, 0x01, 0x00, 0x00, 0x00, 0x07, 0x00, 0x01, 0x00, 0x00, 0x00, 0xc8, 0x42]
    ++ [0x00, 0x00, 0x48, 0x43, 0x00, 0x00, 0x00, 0x00, 0x00, 0x01, 0x00, 0x02, 0x00, 0x03, 0x00, 0x04]

theorem test_decode_framePulse :
    decodeFrame 0x52414452#32 pulseBytes
      = .ok (.framePulse 1 0x3E8 1 7 1 0x42C80000#32 0x43480000#32 0 [0x100, 0x200, 0x300, 0x400]) := by
  decide +kernel

theorem test_encode_framePulse :
    encodeFrame 0x52414452#32 (.framePulse 1 0x3E8 1 7 1 0x42C80000#32 0x43480000#32 0 [0x100, 0x200, 0x300, 0x400])
      = some pulseBytes := by decide +kernel

theorem test_decode_frame_rejects :
    decodeFrame 0x52414452#32 [0x52, 0x44, 0x41, 0x52, 0x00, 0, 0x00] = .error .tooShort
      ∧ decodeFrame 0x52414452#32 [0x52, 0x44, 0x41, 0x53, 0x00, 0, 0x00, 0] = .error .badMagic
      ∧ decodeFrame 0x52414452#32 [0x52, 0x44, 0x41, 0x52, 0x01, 0, 0x00, 0] = .error .badSize
      ∧ decodeFrame 0x52414452#32 [0x52, 0x44, 0x41, 0x52, 0x00, 0, 0x04, 0] = .error .badType
      ∧ decodeFrame 0x52414452#32 [0x52, 0x44, 0x41, 0x52, 0x00, 0, 0x00, 0] = .error .badPayload := by decide

/-! ## The host's interface -/

theorem test_table_commands :
    decodeTableWord 32 1 = some (.configure 0 0 0 0 0) ∧ decodeTableWord 32 0x00010004 = some (.setTxEnable true)
      ∧ decodeTableWord 32 0x0002000A = some (.sendLog 0 0 [0, 0]) ∧ decodeTableWord 32 0x0C = none := by decide

theorem test_table_frames :
    decodeTableWord 16 0 = some (.frameHeartbeat 0) ∧ decodeTableWord 16 1 = some (.frameLog 0 0 [])
      ∧ decodeTableWord 16 2 = some (.frameReply 0 [])
      ∧ decodeTableWord 16 3 = some (.framePulse 0 0 0 0 0 0 0 0 []) := by decide +kernel

theorem test_fetch_command : step (State.reset.withFetchWord 32 0x80006) = exec (.resolve 8)
    { State.reset with cmd := [], turns := [] } := by rfl

theorem test_fetch_frame :
    (after (step (State.reset.withFetchWord 16 2)) State.reset).history
      = [.frame [0x52, 0x44, 0x41, 0x52, 0x02, 0, 0x02, 0, 0, 0]] := by decide +kernel

/-! ## The instructions -/

/-- §3.5, Idle: the descriptors and the codes of CONFIGURE 1. -/
theorem test_configure_binds :
    codes configured = [999, 1142, 1285, 1428, 1670, 1842, 2122, 2547]
      ∧ configured.tmDesc = ⟨12000, 11990, 5999, 2⟩ ∧ configured.odDesc = ⟨0, 2, 8, .circular⟩
      ∧ configured.smpDesc = ⟨16, 2, 8, .pingPong⟩
      ∧ configured.history = [.alloc .out 0 8, .alloc .inp 16 8, .gain 7] := by decide +kernel

/-- §3.4: CONFIGURE 1, 100, 205, 150 from reset fails after the allocation and releases. -/
theorem test_configure_rolls_back :
    let t := after (exec (.configure 1 0 0x42C80000#32 0x434D0000#32 0x43160000#32) State.reset) State.reset
    t.resp = [[0x00000202#32]] ∧ t.mode = .idle
      ∧ t.history = [.alloc .out 0 8, .alloc .inp 16 8, .free .out, .free .inp] := by decide +kernel

/-- §3.5, Configured: START. -/
theorem test_start : running.mode = .running ∧ running.statusWord = 0x3C2#32 := by decide +kernel

/-- §3.5, Running: START is refused. -/
theorem test_start_refused : (after (exec .start running) running).resp = running.resp ++ [[0x00000106#32]] := by
  decide +kernel

/-- §3.5, Running: STOP. -/
theorem test_stop :
    (after (exec .stop running) running).mode = .configured
      ∧ (after (exec .stop running) running).odOut = none := by decide +kernel

/-- §3.5: SET_TX_ENABLE 1 makes `TRIG_OUT` follow `PARITY`. -/
theorem test_setTxEnable : (after (exec (.setTxEnable true) pending) pending).trigOut = true := by decide +kernel

/-- §3.5: READ_STATUS after a failed calibration. -/
theorem test_readStatus :
    (after (exec .readStatus (State.resetWith Config.tc1 true 0)) State.reset).resp
      = [[0x00010000#32, 0x00000004#32]] := by decide +kernel

/-- §3.2: RESOLVE 8, the tie rounded away from zero. -/
theorem test_resolve :
    (after (exec (.resolve 8) State.reset) State.reset).resp
      = [[0x00070000#32, 2048, 8, 1504, 1494, 188, 187, 512]] := by decide +kernel

/-- §3.2: the overflow of the counter. -/
theorem test_resolve_overflow :
    (after (exec (.resolve 200) State.reset) State.reset).resp = [[0x00000401#32]] := by decide +kernel

/-- §3.5, Configured: GENERATE 2, 6, 100.0, 200.0. -/
theorem test_generate :
    codes (after (exec (.generate 2 6 0x42C80000#32 0x43480000#32) configured) configured)
      = [999, 1142, 1285, 1428, 1670, 1842, 999, 2547] := by decide +kernel

/-- §3.3: a descending ramp, back to front. -/
theorem test_generate_descending :
    codes (after (exec (.generate 5 0 0x43480000#32 0x42C80000#32) configured) configured)
      = [2547, 1901, 1499, 1249, 999, 1842, 2122, 2547] := by decide +kernel

/-- EMIT_PULSE with nothing pending (rules R118, R120; notes/assumptions/9.md). -/
theorem test_emitPulse_nothing :
    (after (exec .emitPulse configured) configured).resp = configured.resp ++ [[0x00000108#32]] := by decide +kernel

/-- Rule R285: with `SMP_IDX = K` the first half is drained, here with elements written by hand. -/
theorem test_emitPulse_half :
    let s := { pending with buf := Memory.write pending.buf 16 (bytesOfHalves [0x100, 0x200, 0x300, 0x400]) }
    (after (exec .emitPulse s) s).history = s.history ++ [.frame pulseBytes]
      ∧ (after (exec .emitPulse s) s).lastEmitted = 1 := by decide +kernel

/-- Rule R280: a Heartbeat does not fit 11 bytes. -/
theorem test_sendHeartbeat_space :
    (after (exec .sendHeartbeat (withScratch 11 State.reset)) State.reset).resp = [[0x00000104#32]] := by
  decide +kernel

/-- Rule R281's example. -/
theorem test_sendLog :
    (after (exec (.sendLog 2 1 [0x68, 0x69]) State.reset) State.reset).history
      = [.frame [0x52, 0x44, 0x41, 0x52, 0x06, 0, 0x01, 0, 0x02, 0, 0x01, 0, 0x68, 0x69]] := by decide +kernel

/-- Rule R282's example. -/
theorem test_sendReply :
    (after (exec (.sendReply 0 [0x4f, 0x4b]) State.reset) State.reset).history
      = [.frame [0x52, 0x44, 0x41, 0x52, 0x04, 0, 0x02, 0, 0, 0, 0x4f, 0x4b]] := by decide +kernel

theorem test_frameHeartbeat :
    (after (exec (.frameHeartbeat 0x12345678#32) State.reset) State.reset).history
      = [.frame [0x52, 0x44, 0x41, 0x52, 0x04, 0, 0, 0, 0x78, 0x56, 0x34, 0x12]] := by decide +kernel

theorem test_frameLog_lost :
    (after (exec (.frameLog 0 0 []) (withScratch 11 State.reset)) State.reset).history = [] := by decide +kernel

/-- §3.6, tick 8: the last sample of the first half latches the interrupt. -/
theorem test_tick_half :
    let t := after (step (turnOf (.tick 0x400) lastOfHalf)) State.reset
    t.irq = true ∧ t.smpIdx = 4 ∧ t.odIdx = 0 ∧ t.tmPhase = 0 ∧ t.odLast = some 2547
      ∧ elementAt t t.inBuf 3 = 0x400 := by decide +kernel

/-- Rule R246: the handler with `TX_EN` set and an odd sequence number. -/
theorem test_handler :
    let t := after (step (turnOf (.handler 9) { State.reset with irq := true, txEn := true })) State.reset
    t.irq = false ∧ t.seq = 1 ∧ t.ts = 9 ∧ t.parity = true := by decide +kernel

/-- A block with more than 2^32 bytes of buffer memory runs its commands like any other. -/
theorem test_wide_memory :
    let s := { State.reset with cfg := { Config.tc1 with bufCapacity := 8589934592 }, cmd := [3], turns := [.command] }
    goesOn (step s) = true ∧ lengthsFit s.cfg = true
      ∧ codes (after (exec (.configure 1 7 0x42C80000#32 0x43480000#32 0#32) s) s)
        = [999, 1142, 1285, 1428, 1670, 1842, 2122, 2547] := by decide +kernel

/-- §3.3: `SEGMENT_ADVANCE = single` and `RAMP_STEP_DIVISOR = N`, the latter both ways. -/
theorem test_ramp_parameters :
    rampCodes { Config.tc1 with segmentAdvance := .single } 0x42C80000#32 0x43480000#32 2 = .ok [999, 2099]
      ∧ rampCodes { Config.tc1 with stepDivisor := .n } 0x42C80000#32 0x43480000#32 5
        = .ok [999, 1199, 1399, 1699, 1995]
      ∧ rampCodes { Config.tc1 with stepDivisor := .n } 0x43480000#32 0x42C80000#32 5
        = .ok [1995, 1699, 1399, 1199, 999] := by decide +kernel

/-! ## Witnesses: encoding -/

theorem witness_CommandDecodeInvertsEncode :
    wellFormed (.sendLog 2 1 [0x61, 0x62, 0x63, 0x64, 0x65]) = true
      ∧ encodeCommand (.sendLog 2 1 [0x61, 0x62, 0x63, 0x64, 0x65])
        = some [0x0005000A#32, 0x00010002#32, 0x64636261#32, 0x00000065#32] := by decide

theorem witness_FrameDecodeInvertsEncode :
    wellFormed (.frameReply 0 [0x4f, 0x4b]) = true
      ∧ encodeFrame 0x52414452#32 (.frameReply 0 [0x4f, 0x4b])
        = some [0x52, 0x44, 0x41, 0x52, 0x04, 0, 0x02, 0, 0, 0, 0x4f, 0x4b] := by decide

/-- `FrameEncodeInvertsDecode`'s hypothesis: `test_decode_framePulse`; and the shortest frame of each type decodes. -/
theorem witness_FrameEncodeInvertsDecode :
    decodeFrame 0x52414452#32 (tableFrame 0x52414452#32 1) = .ok (.frameLog 0 0 []) := by decide

theorem witness_DecoderConsumesCommandLength :
    commandLength 0x00010001#32 = 5 ∧ commandLength 0x0000000A#32 = 2 ∧ commandLength 0x0004000A#32 = 3
      ∧ commandLength 0x0005000B#32 = 4 ∧ commandLength 0x000000FF#32 = 1
      ∧ decodeCommand [0x00010001#32, 0, 0, 0] = .waiting := by decide

theorem witness_ReservedEncodingsAreIllegal :
    commandReady [0x00000000#32] = true ∧ commandReady [0x0000000C#32] = true ∧ commandReady [0x0000010B#32, 0#32] = true
      ∧ commandReady [0x00000007#32, 0x00010000#32, 0, 0] = true ∧ commandReady [0x00010009#32] = true
      ∧ commandReady [0x00020004#32] = true
      ∧ (commandReady [0x0000010C#32] = true ∧ decodeCommand [0x0000010C#32] = .illegal .unknownOpcode []) := by decide

/-! ## Witnesses: the step -/

theorem witness_StepRunsTheDecodedCommand :
    configOk State.reset.cfg = true
      ∧ decodeCommand ({ State.reset with cmd := [2#32] } : State).cmd = .instr .start [] := by decide +kernel

theorem witness_StepRunsThePlacedFrame :
    configOk (placeFrame State.reset 2).cfg = true ∧ (placeFrame State.reset 2).frameReq ≠ []
      ∧ decodeFrame (placeFrame State.reset 2).cfg.frameMagic (placeFrame State.reset 2).frameReq
        = .ok (.frameReply 0 []) := by decide +kernel

theorem witness_IllegalCommandOnlyResponds :
    configOk State.reset.cfg = true ∧ decodeCommand [0#32] = .illegal .unknownOpcode []
      ∧ decodeCommand [0x00000102#32] = .illegal .reservedBits []
      ∧ decodeCommand [0x00020004#32] = .illegal .badImmediate [] := by decide +kernel

theorem witness_EveryCommandRespondsOnce :
    (encodeCommand .readStatus).isSome = true
      ∧ exec .readStatus State.reset = .next (after (exec .readStatus State.reset) State.reset) :=
  ⟨rfl, rfl⟩

/-- One configuration for each clause; a scratch region of 8 bytes and a settle count of 1 are still admitted, and so is a
buffer memory of more than 2^32 bytes. -/
theorem witness_IllFormedParametersAreRefused :
    ¬ List.Pairwise (· ≤ ·) [(2 : Rat), 1] ∧ (65535 : Nat) < 65536
      ∧ configOk { Config.tc1 with scratchCapacity := 7 } = false
      ∧ configOk { Config.tc1 with settleCount := 0 } = false
      ∧ configOk { Config.tc1 with cal := ⟨[100], []⟩ } = false
      ∧ configOk { Config.tc1 with scratchCapacity := 8, settleCount := 1, maxCode := 65535 } = true
      ∧ List.Pairwise (· ≤ ·) Config.tc1.cal.breakpoints ∧ Config.tc1.cal.cubics ≠ []
      ∧ configOk { Config.tc1 with bufCapacity := 8589934592 } = true := by
  decide +kernel

theorem witness_HostDeliversOneCommand :
    configOk State.reset.cfg = true ∧ commandReady State.reset.cmd = false ∧ commandReady [2#32] = true := by
  decide +kernel

/-! ## Witnesses: whole-machine rules -/

theorem witness_StateTransitions_configure :
    exec (.configure 1 7 0x42C80000#32 0x43480000#32 0) State.reset = .next configured ∧ configured.mode = .configured
      ∧ goesOn (exec (.configure 4 7 0x42C80000#32 0x43480000#32 0) configured) = true :=
  ⟨eq_next State.reset (by decide +kernel), by decide +kernel, by decide +kernel⟩

theorem witness_StateTransitions_start_stop :
    exec .start configured = .next running ∧ goesOn (exec .start State.reset) = true
      ∧ goesOn (exec .stop running) = true ∧ goesOn (exec .stop State.reset) = true :=
  ⟨eq_next configured (by decide +kernel), by decide +kernel, by decide +kernel, by decide +kernel⟩

theorem witness_CommandsLeaveThePulseRecord :
    exec .emitPulse pending = .next (after (exec .emitPulse pending) pending) :=
  eq_next pending (by decide +kernel)

theorem witness_OnlyResetWritesCalFail :
    step (turnOf (.reset true) running) = .next (after (step (turnOf (.reset true) running)) running)
      ∧ (after (step (turnOf (.reset true) running)) running).calFail ≠ (turnOf (.reset true) running).calFail :=
  ⟨eq_next running (by decide +kernel), by decide +kernel⟩

theorem witness_OnlyConfigureWritesTheBinding :
    isConfigure .stop = false ∧ goesOn (exec .stop running) = true
      ∧ goesOn (takeTurn (.tick 5) running) = true ∧ goesOn (takeTurn (.handler 5) running) = true := by
  decide +kernel

theorem witness_OnlySendersDeliverFrames :
    let s := after (exec (.frameReply 0 []) configured) configured
    let F : List Byte := [0x52, 0x44, 0x41, 0x52, 0x02, 0, 0x02, 0, 0, 0]
    sendsFrame .start = false ∧ goesOn (exec .start s) = true
      ∧ framesOf (after (exec .start s) s).history = [F]
      ∧ framesOf (after (exec (.frameReply 0 []) s) s).history = [F, F]
      ∧ goesOn (takeTurn (.handler 5) { s with irq := true }) = true ∧ goesOn (takeTurn (.deliver 2) s) = true
      ∧ goesOn (takeTurn (.tick 5) { s with mode := .running }) = true := by decide +kernel

theorem witness_LatchRisesAndFallsByRule :
    goesOn (step (turnOf (.tick 1) lastOfHalf)) = true ∧ lastOfHalf.irq = false
      ∧ (after (step (turnOf (.tick 1) lastOfHalf)) lastOfHalf).irq = true
      ∧ goesOn (step (turnOf (.handler 1) { running with irq := true })) = true
      ∧ (after (step (turnOf (.handler 1) { running with irq := true })) running).irq = false := by decide +kernel

/-! ## Witnesses: invariants -/

theorem witness_reset_inv : State.reset.Inv := inv_of_check (by decide +kernel)

theorem witness_configured_inv : configured.Inv := inv_of_check (by decide +kernel)

theorem witness_running_inv : running.Inv ∧ running.mode = .running :=
  ⟨inv_of_check (by decide +kernel), by decide +kernel⟩

theorem witness_lastOfHalf_inv : (turnOf (.tick 0x400) lastOfHalf).Inv := inv_of_check (by decide +kernel)

theorem witness_ResetMeetsTheInvariant : configOk Config.tc1 = true := by decide +kernel

theorem witness_StepKeepsTheInvariant :
    (turnOf (.tick 0x400) lastOfHalf).Inv ∧ lengthsFit lastOfHalf.cfg = true
      ∧ (turnOf (.tick 0x400) lastOfHalf).CursorsInStep
      ∧ (turnOf (.tick 0x400) lastOfHalf).AllocBalanced ∧ (turnOf (.tick 0x400) lastOfHalf).SeqCounts
      ∧ goesOn (step (turnOf (.tick 0x400) lastOfHalf)) = true :=
  ⟨witness_lastOfHalf_inv, by decide +kernel⟩

theorem witness_StepKeepsMemoriesCanonical :
    Memory.wf running.buf ∧ Memory.wf running.scr ∧ goesOn (step (turnOf (.tick 1) running)) = true := by
  decide +kernel

theorem witness_EmittedCodesAreLegal :
    (turnOf (.tick 0x400) lastOfHalf).Inv ∧ lengthsFit lastOfHalf.cfg = true
      ∧ Event.odOut 2547 ∈ (after (step (turnOf (.tick 0x400) lastOfHalf)) running).history :=
  ⟨witness_lastOfHalf_inv, by decide +kernel⟩

theorem witness_FailedCalibrationStaysIdle :
    let s := turnOf (.handler 0) (State.resetWith Config.tc1 true 0)
    s.Inv ∧ s.calFail = true ∧ goesOn (step s) = true ∧ s.nextTurn = .handler 0 :=
  ⟨inv_of_check (by decide +kernel), by decide +kernel⟩

/-! ## Witnesses: START, STOP -/

theorem witness_StartEnablesTheSubsystems : configured.mode = .configured := by decide +kernel

theorem witness_StartNeedsConfigured : State.reset.mode ≠ .configured ∧ running.mode ≠ .configured := by decide +kernel

theorem witness_StopIsIdempotent :
    (State.reset.EnablesAgree ∧ State.reset.mode ≠ .running)
      ∧ (configured.EnablesAgree ∧ configured.mode ≠ .running) := by decide +kernel

/-! ## Witnesses: the resolver -/

/-- A resolved profile of TC1. -/
def profile8 : TimingProfile := ⟨2048, 8, 188, 1504, 512, 1494, 187⟩

theorem witness_ResolveReportsTheProfile :
    resolve State.reset.cfg 8 = .ok profile8 ∧ profile8.outLen < 4294967296 ∧ profile8.spc < 4294967296 := by
  decide +kernel

/-- Each clause has its row in TC1: no row, the sentinel, a zero factor, an inexact division, an underflow, an overflow,
the granularity, and a row that is accepted. -/
theorem witness_ResolverRejectionsInOrder :
    timingRow Config.tc1 4 = none ∧ timingRow Config.tc1 2 = some ⟨2, 0, 0⟩ ∧ timingRow Config.tc1 6 = some ⟨6, 16, 0⟩
      ∧ timingRow Config.tc1 5 = some ⟨5, 1000, 3⟩ ∧ timingRow Config.tc1 9 = some ⟨9, 48000, 1⟩
      ∧ holdCount Config.tc1 9 48000 < Config.tc1.settleCount ∧ timingRow Config.tc1 200 = some ⟨200, 1000, 10⟩
      ∧ 65535 < 10 * holdCount Config.tc1 200 1000 ∧ timingRow Config.tc1 3 = some ⟨3, 250, 2⟩
      ∧ holdCount Config.tc1 3 250 = 576 ∧ timingRow Config.tc1 8 = some ⟨8, 2048, 8⟩
      ∧ Config.tc1.settleCount ≤ 8 * holdCount Config.tc1 8 2048 ∧ 8 * holdCount Config.tc1 8 2048 ≤ 65535
      ∧ resolve Config.tc1 8 = .ok profile8 := by decide +kernel

theorem witness_ResolveReportsTheRejection :
    resolve Config.tc1 4 = .error .unsupportedDuration ∧ resolve Config.tc1 6 = .error .zeroScale
      ∧ resolve Config.tc1 5 = .error .inexactDivision ∧ resolve Config.tc1 9 = .error .countRange
      ∧ resolve Config.tc1 3 = .error .granularity := by decide +kernel

theorem witness_ResolvedProfileIsSound : configOk Config.tc1 = true ∧ resolve Config.tc1 8 = .ok profile8 := by
  decide +kernel

theorem witness_HoldCountIsNearest :
    Config.tc1.resolveArith = .exact ∧ Config.tc1.holdDiv = .exact ∧ holdCount Config.tc1 8 2048 = 188
      ∧ holdCount { Config.tc1 with holdDiv := .truncate } 8 2048 = 144 := by decide +kernel

/-! ## Witnesses: the ramp generator -/

/-- Both outcomes, a success each way and a failure at the last sample. -/
theorem witness_RampWalkIsFreshSearch :
    configOk Config.tc1 = true ∧ Config.tc1.rampArith = .exact ∧ Config.tc1.segmentAdvance = .multi
      ∧ endpointOk Config.tc1 0x42C80000#32 = true ∧ endpointOk Config.tc1 0x434D0000#32 = true
      ∧ rampCodes Config.tc1 0x43480000#32 0x42C80000#32 2 = .ok [2547, 999]
      ∧ rampCodes Config.tc1 0x42C80000#32 0x434D0000#32 3 = .error .coverageExhausted := by decide +kernel

/-- NaN, +∞, 94.5 below 95 and 211.0 above 210 for either endpoint; the bounds 95.0 and 210.0 themselves pass. -/
theorem witness_BadEndpointFailsTheRamp :
    isFinite32 0x7FC00000#32 = false ∧ isFinite32 0x7F800000#32 = false
      ∧ val32 0x42BD0000#32 < Config.tc1.fMin ∧ Config.tc1.fMax < val32 0x43530000#32
      ∧ endpointOk Config.tc1 0x42BE0000#32 = true ∧ endpointOk Config.tc1 0x43520000#32 = true := by decide +kernel

/-- The worked samples of §3.3: 99 lies below the table and 205 above it; 160.5 lies in segment 2; 100.25 is a tie,
rounded away from zero; and the code of 200 under `VREF = 2` exceeds `MAX_CODE`. -/
theorem test_samples :
    checkedCode Config.tc1 (freshSample Config.tc1 99 99 1 0) = .error .belowCoverage
      ∧ checkedCode Config.tc1 (freshSample Config.tc1 205 205 1 0) = .error .coverageExhausted
      ∧ checkedCode Config.tc1 (freshSample Config.tc1 (321 / 2) (321 / 2) 1 0) = .ok 1704
      ∧ checkedCode Config.tc1 (freshSample Config.tc1 (401 / 4) (401 / 4) 1 0) = .ok 1002
      ∧ checkedCode { Config.tc1 with vref := 2 } (freshSample { Config.tc1 with vref := 2 } 200 200 1 0)
        = .error .codeRange := by decide +kernel

/-- The hypotheses on the nearest integer at that tie: 1002.5 lies half-way, and 1003 is the one farther from zero. -/
theorem witness_RampSamplesSpanTheInterval_code :
    Config.tc1.maxCode ≤ 65535 ∧ Config.tc1.cal.cubics[0]? = some ⟨1, 1 / 100, 0, 0⟩
      ∧ (1 + 1 / 100 * (401 / 4 - 100)) / Config.tc1.vref * (Config.tc1.maxCode : Rat) = 2005 / 2
      ∧ (1003 : Rat) - 2005 / 2 = 1 / 2 ∧ (2005 / 2 : Rat) < 1003 := by decide +kernel

theorem witness_RampSamplesSpanTheInterval :
    Config.tc1.stepDivisor = .nMinusOne ∧ sampleFreq Config.tc1 100 200 2 1 = 200
      ∧ sampleFreq Config.tc1 100 200 1 0 = 100
      ∧ sampleFreq { Config.tc1 with stepDivisor := .n } 100 200 5 4 = 180 := by decide +kernel

theorem witness_SwappedEndpointsReverseTheRamp :
    val32 0x42C80000#32 ≠ val32 0x43480000#32
      ∧ rampCodes Config.tc1 0x42C80000#32 0x43480000#32 2 = .ok [999, 2547]
      ∧ val32 0x00000000#32 = val32 0x80000000#32
      ∧ rampCodes Config.tc1 0x42C80000#32 0x42C80000#32 2 = .ok [999, 999]
      ∧ rampCodes Config.tc1 0x434D0000#32 0x434D0000#32 1 = .error .coverageExhausted := by decide +kernel

/-- Rule R191, on the triangles of §3.3 with `L = 8`: under `N-1` the code of `f_stop` stands twice; under `N` the up-ramp
stops one step short of it (175, whose code §3.3 gives as 1901), and a second half that ascends starts exactly at it. -/
theorem test_triangle_junction :
    let n := { Config.tc1 with stepDivisor := .n }
    rampTable Config.tc1 ⟨true, 1, 0, 0x42C80000#32, 0x43480000#32, 0x43160000#32⟩ 8
        = .ok [999, 1332, 1775, 2547, 2547, 2067, 1775, 1499]
      ∧ (rampTable n ⟨true, 1, 0, 0x42C80000#32, 0x43480000#32, 0x43160000#32⟩ 8).toOption.map (·[3]?)
        = some (some 1901)
      ∧ (rampTable n ⟨true, 1, 0, 0x43480000#32, 0x42C80000#32, 0x43160000#32⟩ 8).toOption.map (·[4]?)
        = some (some 999) := by decide +kernel

/-- A fill of `configured`'s buffer ends well, for a sawtooth and for a triangle of odd length. -/
def fillEnds (q : Request) (len : Nat) : Bool :=
  match fillRamp configured q len with
  | .ok (.done _) => true
  | .ok (.rangeError _ _) => false
  | .error _ => false

theorem witness_FilledBufferIsTheRampTable :
    fillEnds ⟨true, 1, 0, 0x42C80000#32, 0x43480000#32, 0⟩ 8 = true
      ∧ fillEnds ⟨true, 1, 0, 0x42C80000#32, 0x43480000#32, 0x43160000#32⟩ 7 = true := by decide +kernel

theorem witness_GenerateWritesTheRegion :
    configured.mode = .configured ∧ (3 : Half).toNat + (5 : Half).toNat ≤ configured.outBuf.len.toNat
      ∧ (8 : Half).toNat + (0 : Half).toNat ≤ configured.outBuf.len.toNat
      ∧ configured.outBuf.base.toNat % 2 = 0
      ∧ configured.outBuf.base.toNat + 2 * configured.outBuf.len.toNat ≤ configured.cfg.bufCapacity
      ∧ rampCodes configured.cfg 0x42C80000#32 0x43480000#32 5 = .ok [999, 1249, 1499, 1901, 2547]
      ∧ rampCodes configured.cfg 0x42C80000#32 0x43480000#32 0 = .ok [] := by decide +kernel

theorem witness_GenerateErrorsChangeNothing :
    State.reset.mode ≠ .configured ∧ configured.mode = .configured
      ∧ configured.outBuf.len.toNat < (4 : Half).toNat + (5 : Half).toNat
      ∧ (3 : Half).toNat + (5 : Half).toNat ≤ configured.outBuf.len.toNat
      ∧ rampCodes configured.cfg 0x42C80000#32 0x434D0000#32 5 = .error .coverageExhausted := by decide +kernel

/-! ## Witnesses: CONFIGURE -/

/-- The profile of duration 1. -/
def profile1 : TimingProfile := ⟨8, 2, 6000, 12000, 8, 11990, 5999⟩

theorem witness_ConfigureBindsTheRequest :
    State.reset.calFail = false ∧ resolve State.reset.cfg 1 = .ok profile1
      ∧ 2 * profile1.outLen + 2 * profile1.inLen ≤ State.reset.cfg.bufCapacity
      ∧ 2 * profile1.outLen + 2 * profile1.inLen ≤ 4294967296 ∧ State.reset.cfg.counterWidth ≤ 32
      ∧ rampTable State.reset.cfg ⟨true, 1, 7, 0x42C80000#32, 0x43480000#32, 0⟩ profile1.outLen
        = .ok [999, 1142, 1285, 1428, 1670, 1842, 2122, 2547] := by decide +kernel

/-- Each clause: a failed calibration, a rejected duration, and the profile of duration 12, 24576 bytes against 8192. -/
theorem witness_ConfigureRollsBackBeforeTheRamp :
    (State.resetWith Config.tc1 true 0).calFail = true
      ∧ (State.reset.calFail = false ∧ resolve State.reset.cfg 4 = .error .unsupportedDuration)
      ∧ resolve State.reset.cfg 12 = .ok ⟨4096, 1, 141, 141, 8192, 131, 140⟩
      ∧ State.reset.cfg.bufCapacity < 2 * 4096 + 2 * 8192 := by decide +kernel

theorem witness_ConfigureRollsBackAfterTheRamp :
    running.calFail = false ∧ resolve running.cfg 1 = .ok profile1
      ∧ 2 * profile1.outLen + 2 * profile1.inLen ≤ running.cfg.bufCapacity
      ∧ rampTable running.cfg ⟨true, 1, 7, 0x42C80000#32, 0x434D0000#32, 0x43160000#32⟩ profile1.outLen
        = .error .coverageExhausted := by decide +kernel

/-! ## Witnesses: the framer -/

theorem witness_HeartbeatIsSent :
    12 ≤ (withScratch 12 State.reset).cfg.scratchCapacity ∧ (withScratch 11 State.reset).cfg.scratchCapacity < 12 := by
  decide +kernel

/-- The boundaries of the three clauses: 1024 bytes take a text of 1012 bytes and not one of 1013, and with 70000 bytes
a text of 65531 bytes is the longest. -/
theorem witness_LogIsSent :
    (12 + (List.replicate 1012 (0 : Byte)).length ≤ State.reset.cfg.scratchCapacity
        ∧ 4 + (List.replicate 1012 (0 : Byte)).length ≤ 65535)
      ∧ State.reset.cfg.scratchCapacity < 12 + (List.replicate 1013 (0 : Byte)).length
      ∧ (12 + (List.replicate 65532 (0 : Byte)).length ≤ (withScratch 70000 State.reset).cfg.scratchCapacity
        ∧ 65535 < 4 + (List.replicate 65532 (0 : Byte)).length) := by
  simp only [List.length_replicate]
  decide

theorem witness_ReplyIsSent :
    (10 + (List.replicate 1014 (0 : Byte)).length ≤ State.reset.cfg.scratchCapacity
        ∧ 2 + (List.replicate 1014 (0 : Byte)).length ≤ 65535)
      ∧ State.reset.cfg.scratchCapacity < 10 + (List.replicate 1015 (0 : Byte)).length
      ∧ (10 + (List.replicate 65534 (0 : Byte)).length ≤ (withScratch 70000 State.reset).cfg.scratchCapacity
        ∧ 65535 < 2 + (List.replicate 65534 (0 : Byte)).length) := by
  simp only [List.length_replicate]
  decide

/-- A frame of each type that fits; one that does not fit 11 bytes; and `test_wf_frameLog_payload`'s, which has no
encoding of its size. -/
theorem witness_FramesAreDelivered :
    (encodeFrame State.reset.cfg.frameMagic (.frameHeartbeat 5)).map List.length = some 12
      ∧ (encodeFrame State.reset.cfg.frameMagic (.frameLog 2 1 [])).map List.length = some 12
      ∧ (encodeFrame State.reset.cfg.frameMagic (.frameReply 2 [])).map List.length = some 10
      ∧ (encodeFrame State.reset.cfg.frameMagic (.framePulse 1 2 1 3 4 5 6 7 [8])).map List.length = some 42
      ∧ wellFormed (.framePulse 1 2 1 3 4 5 6 7 [8]) = true ∧ 42 ≤ State.reset.cfg.scratchCapacity
      ∧ (withScratch 11 State.reset).cfg.scratchCapacity < 12 := by decide +kernel

/-- With the sampler stopped and with it running; and the room is just enough at 48 bytes. -/
theorem witness_PulseIsEmitted :
    let s := withScratch 48 pending
    s.mode ≠ .idle ∧ s.seq ≠ s.lastEmitted ∧ s.inBuf.len = s.prof.inLen ∧ s.inBuf.base.toNat % 2 = 0
      ∧ s.inBuf.base.toNat + 2 * s.inBuf.len.toNat ≤ s.cfg.bufCapacity
      ∧ 40 + 2 * (s.prof.inLen.toNat / 2) ≤ s.cfg.scratchCapacity ∧ 32 + 2 * (s.prof.inLen.toNat / 2) ≤ 65535
      ∧ s.smpEn = false ∧ ({ running with seq := 1 } : State).smpEn = true
      ∧ running.mode ≠ .idle ∧ running.lastEmitted = 0 := by decide +kernel

/-- A stopped block with an input buffer of 65504 samples, and room for the frame but not for its size. -/
def widePulse : State :=
  { State.reset with
    cfg := { Config.tc1 with bufCapacity := 262144, scratchCapacity := 65544 }
    mode := .configured, seq := 1
    prof := { BoundProfile.none with inLen := 65504 }
    inBuf := ⟨131008, 65504⟩ }

theorem witness_PulseRefusals :
    State.reset.mode = .idle ∧ (configured.mode ≠ .idle ∧ configured.seq = configured.lastEmitted)
      ∧ (pending.mode ≠ .idle ∧ pending.seq ≠ pending.lastEmitted ∧ pending.inBuf.len = pending.prof.inLen
        ∧ pending.inBuf.base.toNat % 2 = 0
        ∧ pending.inBuf.base.toNat + 2 * pending.inBuf.len.toNat ≤ pending.cfg.bufCapacity
        ∧ (withScratch 47 pending).cfg.scratchCapacity < 40 + 2 * (pending.prof.inLen.toNat / 2))
      ∧ (widePulse.mode ≠ .idle ∧ widePulse.seq ≠ widePulse.lastEmitted ∧ widePulse.inBuf.len = widePulse.prof.inLen
        ∧ widePulse.inBuf.base.toNat % 2 = 0
        ∧ widePulse.inBuf.base.toNat + 2 * widePulse.inBuf.len.toNat ≤ widePulse.cfg.bufCapacity
        ∧ 40 + 2 * (widePulse.prof.inLen.toNat / 2) ≤ widePulse.cfg.scratchCapacity
        ∧ 65535 < 32 + 2 * (widePulse.prof.inLen.toNat / 2)) := by decide +kernel

/-! ## The assembler -/

/-- Commands, comments, both integer bases and a quoted `;`, `,` and escape (R150). The pattern of 9.6e9 is that of
IEEE 754, computed by hand: 9.6e9 = 9375000 · 2^10, so the exponent field is 160 and the fraction 986392. -/
theorem test_assemble_stream :
    assemble "; set up\nCONFIGURE 25, 0x10, 9.6e9, -0.5, 0.0 ; ramp\n SEND_LOG 1,2,\"a;b,\\x22\"\nSTART".toList
      = .ok [.configure 25 16 0x500F0D18 0xBF000000 0, .sendLog 1 2 [0x61, 0x3B, 0x62, 0x2C, 0x22], .start] := by
  decide +kernel

/-- The pseudo-instructions of R151, and TRIANGLE's refusal of −0.0. -/
theorem test_assemble_pseudo :
    assemble "SAWTOOTH 1,2,1.0,2.0\nTX_ON\nTX_OFF\nRECONFIGURE 1,2,1.0,2.0,3.0\nHALT".toList
        = .ok [.configure 1 2 0x3F800000 0x40000000 0, .setTxEnable true, .setTxEnable false,
          .configure 1 2 0x3F800000 0x40000000 0x40400000, .start, .stop]
      ∧ assemble "TRIANGLE 1,2,1.0,2.0,-0.0".toList = .error .zeroReturn
      ∧ assemble "RESOLVE 65536".toList = .error .doesNotFit ∧ assemble "STOP 1".toList = .error .operandCount := by
  decide +kernel

/-- A tie between 2^24 and 2^24 + 2 goes down to the even fraction, the next tie up; the bound past which R150's
conversion has no nearest finite pattern is met exactly. -/
theorem witness_AssemblerRoundsToNearestEven :
    binary32OfRatio 16777217 1 = 0x4B800000 ∧ binary32OfRatio 16777219 1 = 0x4B800002 ∧ 0 < 1
      ∧ isFinite32 (binary32OfRatio 16777217 1) = true ∧ isFinite32 0x4B800001 = true
      ∧ binary32OfRatio ((2 ^ 25 - 1) * 2 ^ 103) 1 = 0x7F800000
      ∧ binary32OfRatio ((2 ^ 25 - 1) * 2 ^ 103 - 1) 1 = 0x7F7FFFFF := by decide +kernel

/-! ## Witnesses: the tick, the handler and reset -/

/-- A tick that takes a sample and ends a half, and one that takes none. -/
theorem witness_TickMovesBothCursors :
    ((turnOf (.tick 0x400) lastOfHalf).Inv ∧ lastOfHalf.mode = .running
        ∧ lastOfHalf.tmPhase.toNat + 1 = lastOfHalf.prof.tsf.toNat)
      ∧ ((turnOf (.tick 0x400) running).Inv ∧ running.mode = .running
        ∧ running.tmPhase.toNat + 1 ≠ running.prof.tsf.toNat) :=
  ⟨⟨witness_lastOfHalf_inv, by decide +kernel⟩, inv_of_check (by decide +kernel), by decide +kernel⟩

theorem witness_HandlerWritesThePulseRecord :
    configOk (turnOf (.handler 9) { State.reset with irq := true }).cfg = true
      ∧ ({ State.reset with irq := true } : State).irq = true ∧ State.reset.irq = false := by decide +kernel

theorem witness_HandlerRunsCountAndAlternate :
    ({ State.reset with txEn := true } : State).txEn = true ∧ State.reset.txEn = false
      ∧ (handlerRuns [1, 2, 3] { State.reset with txEn := true }).parity = true := by decide +kernel

theorem witness_ResetSetsEveryPieceOfState :
    configOk (turnOf (.reset true) running).cfg = true ∧ (turnOf (.reset true) running).turns = [.reset true] := by
  decide +kernel

end Sys2Proof.Tests
end

/-! SUPPORT. The statements on 00_scope.md: which parameters are refused (rules R7, R8), and what the rounding of rule R11
makes of the hold count (rules R161, R168). -/

namespace Sys2Proof.Machine

/-! ## The admitted parameters (rules R7, R8) -/

/-- The walk over neighbouring entries compares every entry with every later one. -/
theorem ascending_iff (l : List Rat) : ascending l = true ↔ l.Pairwise (· ≤ ·) := by
  rw [← List.isChain_iff_pairwise]
  induction l with
  | nil => simp [ascending]
  | cons a l ih =>
    cases l with
    | nil => simp [ascending]
    | cons b rest => simp [ascending, ih]

/-- The conditions of rule R8, and the types of rule R7's table that plain numbers do not carry. -/
theorem configOk_iff (c : Config) :
    configOk c = true ↔
      (c.cal.breakpoints.Pairwise (· ≤ ·) ∧ c.cal.cubics ≠ [] ∧ c.maxCode ≤ 65535 ∧ 8 ≤ c.scratchCapacity
          ∧ 1 ≤ c.settleCount)
        ∧ c.cal.breakpoints.length = c.cal.cubics.length + 1 ∧ 1 ≤ c.maxCode ∧ 1 ≤ c.busClockHz
        ∧ c.fMin ≤ c.fMax ∧ 0 < c.vref ∧ 1 ≤ c.dmaGranule := by
  have hcubics : 1 ≤ c.cal.cubics.length ↔ c.cal.cubics ≠ [] := List.length_pos_iff
  simp only [configOk, Bool.and_eq_true, decide_eq_true_eq, ascending_iff, hcubics]
  tauto

/-! ## Who refuses -/

/-- CONFIGURE answers or faults, whatever its operands. -/
theorem execConfigure_ne_refused (d g : Half) (fs fe fr : F32) (s : State) (r : Refusal) :
    execConfigure d g fs fe fr s ≠ .refused r := by
  unfold execConfigure configureChecked
  split
  · nofun
  · split
    · nofun
    · unfold configureAllocate
      split
      · nofun
      · unfold configureRamp
        split <;> nofun

/-- GENERATE answers or faults, whatever its operands. -/
theorem execGenerate_ne_refused (n off : Half) (fs fe : F32) (s : State) (r : Refusal) :
    execGenerate n off fs fe s ≠ .refused r := by
  unfold execGenerate
  split
  · nofun
  · split
    · nofun
    · split <;> nofun

/-- EMIT_PULSE answers or faults. -/
theorem execEmitPulse_ne_refused (s : State) (r : Refusal) : execEmitPulse s ≠ .refused r := by
  unfold execEmitPulse
  split
  · nofun
  · split
    · nofun
    · split <;> nofun

/-- Every instruction has a meaning: the refusals belong to the step. -/
theorem exec_ne_refused (i : Instr) (s : State) (r : Refusal) : exec i s ≠ .refused r := by
  cases i with
  | configure d g fs fe fr => exact execConfigure_ne_refused d g fs fe fr s r
  | start =>
    simp only [exec, execStart]
    split <;> nofun
  | resolve d =>
    simp only [exec, execResolve]
    split <;> nofun
  | generate n off fs fe => exact execGenerate_ne_refused n off fs fe s r
  | emitPulse => exact execEmitPulse_ne_refused s r
  | stop | setTxEnable | readStatus | sendHeartbeat | sendLog | sendReply => nofun
  | frameHeartbeat | frameLog | frameReply | framePulse => nofun

/-- A turn refuses only the host's overlapping word (rules R61, R361) and what is no frame (rule R146). -/
theorem takeTurn_refused {tn : Turn} {s : State} {r : Refusal} (h : takeTurn tn s = .refused r) :
    r = .overlappingCommand ∨ ∃ why, r = .malformedFrame why := by
  cases tn with
  | deliver w =>
    simp only [takeTurn, deliverTurn] at h
    split at h <;> cases h
    exact .inl rfl
  | command =>
    simp only [takeTurn, fetchCommand] at h
    split at h
    · cases h
    · cases h
    · exact absurd h (exec_ne_refused _ _ r)
  | tick adc =>
    simp only [takeTurn, tickTurn] at h
    split at h
    · split at h <;> cases h
    · cases h
  | handler w =>
    simp only [takeTurn, handlerTurn] at h
    split at h <;> cases h
  | framer =>
    simp only [takeTurn, fetchFrame] at h
    split at h
    · cases h
    · split at h
      · cases h
        exact .inr ⟨_, rfl⟩
      · exact absurd h (exec_ne_refused _ _ r)
  | reset b => cases h

/-- A step refuses the parameters exactly where the check of rules R7 and R8 fails. -/
theorem step_refused_illFormed_iff (s : State) :
    step s = .refused .illFormedConfiguration ↔ configOk s.cfg = false := by
  have hturn (tn : Turn) (t : State) : takeTurn tn t ≠ .refused .illFormedConfiguration := by
    intro h
    rcases takeTurn_refused h with h | ⟨_, h⟩ <;> cases h
  rcases step_cases (s := s) rfl with ⟨hc, ho⟩ | ⟨hc, tn, ts, _, ho⟩ | ⟨hc, _, ho⟩
  · simp [hc, ho]
  · simp [hc, ho, hturn]
  · simp [hc, ho, hturn]

/-! ## Rounding to the nearest integer (rule R11) -/

/-- Rounding a quotient of naturals is a division of naturals. -/
theorem roundAway_natCast_div (a : Nat) {b : Nat} (hb : 0 < b) :
    roundAway ((a : Rat) / (b : Rat)) = (((2 * a + b) / (2 * b) : Nat) : Int) := by
  have hnonneg : ¬ (a : Rat) / (b : Rat) < 0 := not_lt.mpr (by positivity)
  have hhalf : (a : Rat) / (b : Rat) + 1 / 2 = ((2 * a + b : Nat) : Rat) / ((2 * b : Nat) : Rat) := by
    have hb0 : (b : Rat) ≠ 0 := by positivity
    push_cast
    field_simp
  rw [roundAway, if_neg hnonneg, hhalf]
  exact Rat.floor_natCast_div_natCast (2 * a + b) (2 * b)

/-- The rounded quotient is at most half a unit above `a / b` and less than half a unit below it: the nearest integer, and
the upper one on a tie. -/
theorem roundedQuotient_nearest (a : Nat) {b : Nat} (hb : 0 < b) :
    2 * ((2 * a + b) / (2 * b)) * b ≤ 2 * a + b ∧ 2 * a < (2 * ((2 * a + b) / (2 * b)) + 1) * b := by
  have hle : 2 * b * ((2 * a + b) / (2 * b)) ≤ 2 * a + b := Nat.mul_div_le _ _
  have hlt : 2 * a + b < 2 * b * ((2 * a + b) / (2 * b) + 1) := Nat.lt_mul_div_succ _ (by omega)
  constructor <;> linarith

/-! ## The hold count (rules R161, R168) -/

/-- The hold count over an exact hold time, as one division of naturals. -/
theorem holdCount_exact {c : Config} (d : Half) {outLen : Nat} (hlen : 1 ≤ outLen) (harith : c.resolveArith = .exact)
    (hdiv : c.holdDiv = .exact) :
    holdCount c d outLen
      = (2 * (c.busClockHz * (d.toNat * 1000)) + outLen * 1000000) / (2 * (outLen * 1000000)) := by
  have hquot : (c.busClockHz : Rat) * (((d.toNat * 1000 : Nat) : Rat) / (outLen : Rat)) / 1000000
      = ((c.busClockHz * (d.toNat * 1000) : Nat) : Rat) / ((outLen * 1000000 : Nat) : Rat) := by
    push_cast
    rw [← mul_div_assoc, div_div]
  simp only [holdCount, holdMicros, harith, hdiv, hquot]
  rw [roundAway_natCast_div _ (by omega), Int.toNat_natCast]

/-- The hold count over a truncated hold time, as one division of naturals. -/
theorem holdCount_truncate {c : Config} (d : Half) (outLen : Nat) (harith : c.resolveArith = .exact)
    (hdiv : c.holdDiv = .truncate) :
    holdCount c d outLen
      = (2 * (c.busClockHz * (d.toNat * 1000 / outLen)) + 1000000) / (2 * 1000000) := by
  have hquot : (c.busClockHz : Rat) * ((d.toNat * 1000 / outLen : Nat) : Rat) / 1000000
      = ((c.busClockHz * (d.toNat * 1000 / outLen) : Nat) : Rat) / ((1000000 : Nat) : Rat) := by
    push_cast
    rfl
  simp only [holdCount, holdMicros, harith, hdiv, hquot]
  rw [roundAway_natCast_div _ (by omega), Int.toNat_natCast]

end Sys2Proof.Machine

namespace Sys2Proof.Proofs

open Sys2Proof.Machine

/-- Settles O12: a step refuses the parameters exactly where the check fails, and the check is the list of conditions. -/
theorem illFormedParametersAreRefused : Obligations.IllFormedParametersAreRefused := by
  intro s
  constructor
  · intro hbad
    rw [step_refused_illFormed_iff, ← Bool.not_eq_true, configOk_iff]
    rintro ⟨⟨hasc, hcubics, hmax, hscratch, hsettle⟩, _⟩
    rcases hbad with h | h | h | h | h
    · exact h hasc
    · exact hcubics h
    · omega
    · omega
    · omega
  · intro hasc hcubics hmax hscratch hsettle hlen hmax1 hclock hband hvref hgranule
    rw [Ne, step_refused_illFormed_iff, Bool.not_eq_false, configOk_iff]
    exact ⟨⟨hasc, hcubics, hmax, hscratch, hsettle⟩, hlen, hmax1, hclock, hband, hvref, hgranule⟩

/-- Settles O40: each hold count is a rounded quotient of naturals, which is the nearest integer. -/
theorem holdCountIsNearest : Obligations.HoldCountIsNearest := by
  intro c d outLen hlen harith
  constructor
  · intro hdiv
    rw [holdCount_exact d hlen harith hdiv]
    exact roundedQuotient_nearest _ (by omega)
  · intro hdiv
    rw [holdCount_truncate d outLen harith hdiv]
    exact roundedQuotient_nearest _ (by omega)

end Sys2Proof.Proofs

/-! SUPPORT. The statements on 10_state.md: which pieces of state a step writes, and that every step keeps the block's
invariant. -/

namespace Sys2Proof.Machine

/-! ## Elements after a write (rules R81, R84) -/

/-- An element whose two bytes lie outside a written block reads as before. -/
theorem elementAt_write_of_not (s : State) (b : SampleBuf) {a i : Nat} {bs : List Byte}
    (h : elementAddr b i + 2 ≤ a ∨ a + bs.length ≤ elementAddr b i) :
    elementAt { s with buf := Memory.write s.buf a bs } b i = elementAt s b i := by
  simp only [elementAt, State.byteAt, State.mem_buf]
  rw [Memory.byteAt_write_of_not _ _ (by omega), Memory.byteAt_write_of_not _ _ (by omega)]

/-- A written element reads as it was written. -/
theorem elementAt_write (s : State) (b : SampleBuf) (i : Nat) {vs : List Half} {j : Nat} (hj : j < vs.length) :
    elementAt { s with buf := Memory.write s.buf (elementAddr b i) (bytesOfHalves vs) } b (i + j) = vs[j] := by
  have haddr : elementAddr b (i + j) = elementAddr b i + 2 * j := by unfold elementAddr; omega
  simp only [elementAt, State.byteAt, State.mem_buf, haddr]
  exact byteAt_write_halves _ _ _ vs hj

/-- Each element after a write of elements: one of those written, or unchanged outside their region. -/
theorem writeElements_elementAt {s t : State} {b : SampleBuf} {len off : Nat} {vs : List Half}
    (h : writeElements s b len off vs = .ok t) (i : Nat) :
    (off ≤ i ∧ i < off + vs.length ∧ elementAt t b i ∈ vs)
      ∨ ((i < off ∨ off + vs.length ≤ i) ∧ elementAt t b i = elementAt s b i) := by
  rcases writeElements_spec h with ⟨rfl, rfl⟩ | ⟨_, _, _, _, rfl⟩
  · exact .inr ⟨by simp only [List.length_nil]; omega, rfl⟩
  · by_cases hi : off ≤ i ∧ i < off + vs.length
    · have hj : i - off < vs.length := by omega
      have hread := elementAt_write s b off hj
      rw [Nat.add_sub_cancel' hi.1] at hread
      exact .inl ⟨hi.1, hi.2, hread ▸ List.getElem_mem hj⟩
    · refine .inr ⟨by omega, elementAt_write_of_not s b ?_⟩
      rw [length_bytesOfHalves]
      unfold elementAddr
      omega

/-- Each element of the output buffer after a ramp of `n` samples at `off`: a legal code in the ramp's region, unchanged
outside it (rules R187, R188). -/
theorem generate_done_elementAt {s t : State} {len : Nat} {fs fe : F32} {n off : Nat}
    (h : generate s len fs fe n off = .ok (.done t)) (i : Nat) :
    (off ≤ i ∧ i < off + n ∧ (elementAt t s.outBuf i).toNat ≤ s.cfg.maxCode)
      ∨ ((i < off ∨ off + n ≤ i) ∧ elementAt t s.outBuf i = elementAt s s.outBuf i) := by
  rcases generate_spec h with ⟨_, _, hr⟩ | ⟨vs, _, hcodes, hwrite, hr⟩
  · cases hr
  · cases hr
    obtain ⟨hlen, hle⟩ := rampCodes_spec hcodes
    subst hlen
    exact (writeElements_elementAt hwrite i).imp_left fun ⟨hlo, hhi, hmem⟩ => ⟨hlo, hhi, hle _ hmem⟩

/-- A filled output buffer holds legal codes alone: those of one ramp, or of two that meet (rules R187, R190). -/
theorem fillRamp_done_codes {s t : State} {q : Request} {len : Nat} (h : fillRamp s q len = .ok (.done t)) :
    ∀ i < len, (elementAt t s.outBuf i).toNat ≤ s.cfg.maxCode := by
  intro i hi
  unfold fillRamp at h
  split at h
  · rcases generate_done_elementAt h i with ⟨_, _, hcode⟩ | ⟨hout, _⟩
    · exact hcode
    · omega
  · split at h
    · rename_i u hup
      have hframe : u = { s with buf := u.buf } := (generate_frame hup).1
      have hbuf : u.outBuf = s.outBuf := by rw [hframe]
      have hcfg : u.cfg = s.cfg := by rw [hframe]
      have hdown := generate_done_elementAt h i
      rw [hbuf, hcfg] at hdown
      rcases hdown with ⟨_, _, hcode⟩ | ⟨hout, hsame⟩
      · exact hcode
      · rw [hsame]
        rcases generate_done_elementAt hup i with ⟨_, _, hcode⟩ | ⟨hout', _⟩
        · exact hcode
        · omega
    · cases h
    · cases h

/-! ## Both memories stay canonical and inside their spaces (rules R80, R82, R86) -/

theorem writeElements_keeps_memories {s t : State} {b : SampleBuf} {len off : Nat} {vs : List Half}
    (hm : s.MemoriesOk) (h : writeElements s b len off vs = .ok t) : t.MemoriesOk := by
  rcases writeElements_spec h with ⟨_, rfl⟩ | ⟨_, _, _, hfits, rfl⟩
  · exact hm
  · obtain ⟨hbuf, hscr, hbufIn, hscrIn⟩ := hm
    refine ⟨Memory.write_wf hbuf _ _, hscr, Memory.write_bounded hbufIn ?_, hscrIn⟩
    rw [length_bytesOfHalves]
    exact hfits

theorem generate_keeps_memories {s : State} {len : Nat} {fs fe : F32} {n off : Nat} {r : RampResult}
    (hm : s.MemoriesOk) (h : generate s len fs fe n off = .ok r) : r.state.MemoriesOk := by
  rcases generate_spec h with ⟨_, _, rfl⟩ | ⟨_, _, _, hwrite, rfl⟩
  · exact hm
  · exact writeElements_keeps_memories hm hwrite

theorem fillRamp_keeps_memories {s : State} {q : Request} {len : Nat} {r : RampResult}
    (hm : s.MemoriesOk) (h : fillRamp s q len = .ok r) : r.state.MemoriesOk := by
  unfold fillRamp at h
  split at h
  · exact generate_keeps_memories hm h
  · split at h
    · rename_i hup
      exact generate_keeps_memories (generate_keeps_memories hm hup :) h
    · rename_i hup
      cases h
      exact generate_keeps_memories hm hup
    · cases h

theorem carve_keeps_memories {s : State} {p : TimingProfile} (hm : s.MemoriesOk)
    (hfits : bytesNeeded p ≤ s.cfg.bufCapacity) : (s.carve p).MemoriesOk := by
  obtain ⟨hbuf, hscr, hbufIn, hscrIn⟩ := hm
  refine ⟨Memory.write_wf hbuf _ _, hscr, Memory.write_bounded hbufIn ?_, hscrIn⟩
  simpa using hfits

theorem send_keeps_memories {s : State} (hm : s.MemoriesOk) (type : Half) (pl : List Byte) :
    (send s type pl).2.MemoriesOk := by
  obtain ⟨hbuf, hscr, hbufIn, hscrIn⟩ := hm
  rcases send_spec s type pl with ⟨_, hsend⟩ | ⟨_, _, hsend⟩ | ⟨hfits, _, hsend⟩
  · rw [hsend]; exact ⟨hbuf, hscr, hbufIn, hscrIn⟩
  · rw [hsend]; exact ⟨hbuf, hscr, hbufIn, hscrIn⟩
  · rw [hsend]
    refine ⟨hbuf, Memory.write_wf hscr _ _, hbufIn, Memory.write_bounded hscrIn ?_⟩
    simpa using hfits

theorem configureRamp_keeps_memories {q : Request} {p : TimingProfile} {s t : State} (hm : s.MemoriesOk)
    (h : configureRamp q p s = .next t) : t.MemoriesOk := by
  unfold configureRamp at h
  split at h
  · cases h
  · rename_i hfill
    cases h
    exact (fillRamp_keeps_memories hm hfill :)
  · rename_i hfill
    cases h
    exact (fillRamp_keeps_memories hm hfill :)

theorem configureAllocate_keeps_memories {q : Request} {p : TimingProfile} {s t : State} (hm : s.MemoriesOk)
    (h : configureAllocate q p s = .next t) : t.MemoriesOk := by
  unfold configureAllocate at h
  rcases allocate_spec s p with ⟨_, ha⟩ | ⟨hfits, ha⟩
  · rw [ha] at h
    cases h
    exact hm
  · rw [ha] at h
    exact configureRamp_keeps_memories (carve_keeps_memories (s := s.release) hm hfits) h

theorem execConfigure_keeps_memories {d g : Half} {fs fe fr : F32} {s t : State} (hm : s.MemoriesOk)
    (h : execConfigure d g fs fe fr s = .next t) : t.MemoriesOk := by
  have hentry : s.configureEntry.MemoriesOk := by
    simpa only [State.MemoriesOk, State.configureEntry_buf, State.configureEntry_scr, State.configureEntry_cfg] using hm
  unfold execConfigure configureChecked at h
  split at h
  · cases h
    exact hentry
  · split at h
    · cases h
      exact hentry
    · exact configureAllocate_keeps_memories hentry h

/-! ## The invariant under the shared operations -/

/-- A response is no part of the invariant. -/
theorem respond_keeps_inv {s : State} (hs : s.Inv) (st : Status) (ws : List Word) : (s.respond st ws).Inv := hs

theorem memoriesOk_of_respond {s : State} {st : Status} {ws : List Word} (hm : (s.respond st ws).MemoriesOk) :
    s.MemoriesOk := hm

/-- The send unit touches `SCR` and the history alone. -/
theorem send_keeps_inv {s : State} (hs : s.Inv) (type : Half) (pl : List Byte) : (send s type pl).2.Inv := by
  obtain ⟨hcfg, hen, hmem, hunbound, hbound, hcursors⟩ := hs
  have hmem' := send_keeps_memories hmem type pl
  obtain ⟨m, evs, hsend, _⟩ := send_frame s type pl
  rw [hsend] at hmem' ⊢
  exact ⟨hcfg, hen, hmem', hunbound, hbound, hcursors⟩

/-- A ramp leaves every element of the output buffer that held a legal code with a legal code. -/
theorem generate_keeps_inv {s : State} {fs fe : F32} {n off : Nat} {r : RampResult} (hs : s.Inv)
    (h : generate s s.outBuf.len.toNat fs fe n off = .ok r) : r.state.Inv := by
  obtain ⟨hcfg, hen, hmem, hunbound, hbound, hcursors⟩ := hs
  have hmem' := generate_keeps_memories hmem h
  have hcodes : s.RampOk → ∀ i < s.prof.outLen.toNat, (elementAt r.state s.outBuf i).toNat ≤ s.cfg.maxCode := by
    intro hramp i hi
    cases r with
    | rangeError e u =>
      rcases generate_spec h with ⟨_, _, hr⟩ | ⟨_, _, _, _, hr⟩
      · cases hr
        exact hramp i hi
      · cases hr
    | done u =>
      rcases generate_done_elementAt h i with ⟨_, _, hcode⟩ | ⟨_, hsame⟩
      · exact hcode
      · exact hsame ▸ hramp i hi
  have hframe := (generate_frame h).1
  generalize r.state = t at hmem' hcodes hframe ⊢
  rw [hframe] at hmem' hcodes ⊢
  refine ⟨hcfg, hen, hmem', hunbound, fun hmode => ?_, hcursors⟩
  obtain ⟨hcal, hreq, hprof, hgeom, hdesc, hramp⟩ := hbound hmode
  exact ⟨hcal, hreq, hprof, hgeom, hdesc, fun hfit => (hramp hfit).imp_right hcodes⟩

theorem stoppedMode_ne_running (m : Mode) : stoppedMode m ≠ .running := by
  cases m <;> nofun

theorem stoppedMode_eq_idle_iff (m : Mode) : stoppedMode m = .idle ↔ m = .idle := by
  cases m <;> simp [stoppedMode]

theorem stopBody_keeps_inv {s : State} (hs : s.Inv) : s.stopBody.Inv := by
  obtain ⟨hcfg, _, hmem, hunbound, hbound, _⟩ := hs
  have hstopped := stoppedMode_ne_running s.mode
  have hidle := stoppedMode_eq_idle_iff s.mode
  refine ⟨hcfg, ?_, hmem, fun hm => hunbound (hidle.1 hm), fun hm => hbound (mt hidle.2 hm),
    fun hm => absurd hm hstopped⟩
  simp [State.EnablesAgree, hstopped]

/-- START's fresh cursors lie inside the buffers of the bound profile. -/
theorem startBody_keeps_inv {s : State} (hs : s.Inv) (hm : s.mode = .configured) : s.startBody.Inv := by
  obtain ⟨hcfg, _, hmem, _, hbound, _⟩ := hs
  have hb : s.Bound := hbound (by simp [hm])
  have ⟨_, _, _, ⟨hout, htsf, hin, _⟩, _⟩ := hb
  exact ⟨hcfg, ⟨rfl, rfl, rfl, rfl⟩, hmem, nofun, fun _ => hb, fun _ => ⟨hout, by simp; omega, htsf⟩⟩

/-- Step 1 of CONFIGURE leaves a block of the invariant that does not run. -/
theorem configureEntry_keeps_inv {s : State} (hs : s.Inv) :
    s.configureEntry.Inv ∧ s.configureEntry.mode ≠ .running := by
  refine ⟨?_, by simp [stoppedMode_ne_running]⟩
  unfold State.configureEntry
  split
  · exact stopBody_keeps_inv hs
  · exact hs

/-! ## CONFIGURE -/

/-- All that the end of a CONFIGURE, bound or rolled back, needs of the block before it: nothing is enabled, and a
buffer without elements is the defined empty one (rules R36, R41). -/
def State.Quiet (s : State) : Prop :=
  configOk s.cfg = true ∧ (s.tmEn = false ∧ s.odEn = false ∧ s.odOutEn = false ∧ s.smpEn = false)
    ∧ (s.outBuf.len = 0 → s.outBuf = .empty) ∧ (s.inBuf.len = 0 → s.inBuf = .empty)

/-- A block of the invariant that does not run is quiet: bound buffers hold elements. -/
theorem quiet_of_inv {s : State} (hs : s.Inv) (hm : s.mode ≠ .running) : s.Quiet := by
  obtain ⟨hcfg, ⟨htm, hod, hodOut, hsmp⟩, _, hunbound, hbound, _⟩ := hs
  simp only [hm, decide_false] at htm hod hodOut hsmp
  refine ⟨hcfg, ⟨htm, hod, hodOut, hsmp⟩, ?_⟩
  by_cases hidle : s.mode = .idle
  · obtain ⟨hout, hin, _⟩ := hunbound hidle
    exact ⟨fun _ => hout, fun _ => hin⟩
  · obtain ⟨_, _, _, ⟨hout1, _, hin2, _, _, hout, _, _, hin, _⟩, _⟩ := hbound hidle
    constructor
    · intro h0
      rw [← hout, h0] at hout1
      exact absurd hout1 (by decide)
    · intro h0
      rw [← hin, h0] at hin2
      exact absurd hin2 (by decide)

theorem release_keeps_quiet {s : State} (hs : s.Quiet) : s.release.Quiet := by
  obtain ⟨hcfg, hen, hout, hin⟩ := hs
  exact ⟨hcfg, hen, fun _ => releasedBuf_eq_empty hout, fun _ => releasedBuf_eq_empty hin⟩

/-- The rollback of a failed CONFIGURE ends in an unbound block (rules R222, R228). -/
theorem enterIdle_raise_inv {s : State} {st : Status} (hs : s.Quiet) (hmem : (s.enterIdle.raise st).MemoriesOk) :
    (s.enterIdle.raise st).Inv := by
  obtain ⟨hcfg, hen, hout, hin⟩ := hs
  exact ⟨hcfg, hen, hmem,
    fun _ => ⟨releasedBuf_eq_empty hout, releasedBuf_eq_empty hin, rfl, rfl, rfl, rfl, rfl⟩, nofun, nofun⟩

/-- What rule R171 says of the lengths of an accepted profile. -/
theorem resolve_lengths {c : Config} {d : Half} {p : TimingProfile} (h : resolve c d = .ok p) :
    1 ≤ p.outLen ∧ 1 ≤ p.tsf ∧ p.tsf ≤ p.outLen ∧ p.outLen % p.tsf = 0 ∧ p.inLen = 2 * (p.outLen / p.tsf)
      ∧ 1 ≤ p.outLen / p.tsf := by
  obtain ⟨row, _, hlen, htsf, hdiv, _, _, _, _, _, rfl⟩ := resolve_spec h
  have hle : row.tsf ≤ row.outLen := Nat.le_of_dvd (by omega) (Nat.dvd_of_mod_eq_zero hdiv)
  exact ⟨by simp only [profileOf]; omega, by simp only [profileOf]; omega, hle, hdiv, rfl,
    Nat.div_pos hle (Nat.pos_of_ne_zero htsf)⟩

/-- Where the lengths fit 32 bits, an accepted profile whose buffers fit the memory needs at most 2^32 bytes
(rule R38). -/
theorem resolve_bytesNeeded_le {c : Config} {d : Half} {p : TimingProfile} (h : resolve c d = .ok p)
    (hfit : lengthsFit c = true) (hn : bytesNeeded p ≤ c.bufCapacity) : bytesNeeded p ≤ 4294967296 := by
  obtain ⟨row, hrow, _, _, _, _, _, _, _, _, rfl⟩ := resolve_spec h
  have hmem : row ∈ c.timingTable := List.mem_of_find?_eq_some hrow
  have hall := List.all_eq_true.1 hfit row hmem
  exact of_decide_eq_true hall hn

/-- A field that holds a length shows at least 1, and no more than the length (notes/assumptions/8.md). -/
theorem heldLength_bounds {n : Nat} (h : 1 ≤ n) : 1 ≤ (heldLength n).toNat ∧ (heldLength n).toNat ≤ n := by
  rcases heldLength_spec n with ⟨_, heq⟩ | ⟨_, hlt, htwo, _⟩ <;> omega

/-- A field that holds an even length is even. -/
theorem heldLength_even {n : Nat} (h : n % 2 = 0) : (heldLength n).toNat % 2 = 0 := by
  rcases heldLength_spec n with ⟨_, heq⟩ | ⟨_, _, _, hpar⟩ <;> omega

theorem heldLength_ne_zero {n : Nat} (h : 1 ≤ n) : heldLength n ≠ 0 := by
  intro h0
  have hpos := (heldLength_bounds h).1
  rw [h0] at hpos
  exact absurd hpos (by decide)

theorem carve_keeps_quiet {s : State} {p : TimingProfile} (hs : s.Quiet) (hout : 1 ≤ p.outLen) (hin : 1 ≤ p.inLen) :
    (s.carve p).Quiet := by
  obtain ⟨hcfg, hen, _, _⟩ := hs
  exact ⟨hcfg, hen, fun h0 => absurd h0 (heldLength_ne_zero hout), fun h0 => absurd h0 (heldLength_ne_zero hin)⟩

/-- The state at the end of a successful CONFIGURE: the buffers carved, their memory `m`, the profile bound. -/
def State.boundTo (s : State) (q : Request) (p : TimingProfile) (m : Memory) : State :=
  (State.programDescriptors { s.carve p with buf := m } p).bind q p

/-- The placement of an accepted profile that fits the memory can be accessed (rules R88, R171, R210, R211). -/
theorem boundTo_geometryOk {s : State} {q : Request} {p : TimingProfile} {m : Memory} {d : Half}
    (hp : resolve s.cfg d = .ok p) (hn : bytesNeeded p ≤ s.cfg.bufCapacity) : (s.boundTo q p m).GeometryOk := by
  obtain ⟨hout, htsf, _, _, hin, hhalf⟩ := resolve_lengths hp
  have houtB := heldLength_bounds hout
  have hinB := heldLength_bounds (n := p.inLen) (by omega)
  have hinEven := heldLength_even (n := p.inLen) (by omega)
  have hbaseB := heldLength_bounds (n := 2 * p.outLen) (by omega)
  unfold bytesNeeded at hn
  refine ⟨houtB.1, (heldLength_bounds htsf).1, ?_, hinEven, rfl, rfl, ?_, heldLength_even (by omega), rfl, ?_⟩
  · change 2 ≤ (heldLength p.inLen).toNat
    omega
  · change 2 * (heldLength p.outLen).toNat ≤ s.cfg.bufCapacity
    omega
  · change (heldLength (2 * p.outLen)).toNat + 2 * (heldLength p.inLen).toNat ≤ s.cfg.bufCapacity
    omega

/-- Where 32 bits hold the lengths, the fields show those of the profile (rules R38, R171, R211). -/
theorem boundTo_lengthsExact {s : State} {q : Request} {p : TimingProfile} {m : Memory} {d : Half}
    (hp : resolve s.cfg d = .ok p) (hn : bytesNeeded p ≤ 4294967296) : (s.boundTo q p m).LengthsExact := by
  obtain ⟨hout, htsf, hle, hdiv, hin, hhalf⟩ := resolve_lengths hp
  unfold bytesNeeded at hn
  have houtE : (heldLength p.outLen).toNat = p.outLen := toNat_heldLength (by omega)
  have htsfE : (heldLength p.tsf).toNat = p.tsf := toNat_heldLength (by omega)
  have hinE : (heldLength p.inLen).toNat = p.inLen := toNat_heldLength (by omega)
  have hbaseE : (heldLength (2 * p.outLen)).toNat = 2 * p.outLen := toNat_heldLength (by omega)
  refine ⟨?_, ?_, ?_⟩
  · change (heldLength p.outLen).toNat % (heldLength p.tsf).toNat = 0
    rw [houtE, htsfE, hdiv]
  · change (heldLength p.inLen).toNat = 2 * ((heldLength p.outLen).toNat / (heldLength p.tsf).toNat)
    rw [houtE, htsfE, hinE, hin]
  · change (heldLength (2 * p.outLen)).toNat = 2 * (heldLength p.outLen).toNat
    rw [houtE, hbaseE]

/-- A successful CONFIGURE binds the whole block (rule R228). -/
theorem boundTo_inv {s : State} {q : Request} {p : TimingProfile} {m : Memory} {d : Half} (hs : s.Quiet)
    (hcal : s.calFail = false) (hq : q.valid = true) (hp : resolve s.cfg d = .ok p)
    (hn : bytesNeeded p ≤ s.cfg.bufCapacity) (hmem : (s.boundTo q p m).MemoriesOk)
    (hfill : fillRamp (s.carve p) q p.outLen = .ok (.done { s.carve p with buf := m })) :
    (s.boundTo q p m).Inv := by
  obtain ⟨hcfg, hen, _, _⟩ := hs
  have hramp : (s.boundTo q p m).RampOk := fun i hi =>
    fillRamp_done_codes hfill i (lt_of_lt_of_le hi (heldLength_bounds (resolve_lengths hp).1).2)
  refine ⟨hcfg, hen, hmem, nofun, fun _ => ?_, nofun⟩
  exact ⟨hcal, hq, rfl, boundTo_geometryOk hp hn, ⟨rfl, rfl, rfl⟩,
    fun hfit => ⟨boundTo_lengthsExact hp (resolve_bytesNeeded_le hp hfit hn), hramp⟩⟩

/-- A CONFIGURE that binds ran on a block whose calibration succeeded (rules R223, R306). -/
theorem calFail_of_execConfigure_configured {d g : Half} {fs fe fr : F32} {s t : State}
    (h : execConfigure d g fs fe fr s = .next t) (hm : t.mode = .configured) : s.calFail = false := by
  cases hcal : s.calFail with
  | false => rfl
  | true =>
    simp only [execConfigure, configureChecked, State.configureEntry_calFail, hcal, if_true, configureFails] at h
    cases h
    cases hm

theorem execConfigure_keeps_inv {d g : Half} {fs fe fr : F32} {s t : State} (hs : s.Inv)
    (h : execConfigure d g fs fe fr s = .next t) : t.Inv := by
  have ⟨_, _, hmemories, _⟩ := hs
  have hmem : t.MemoriesOk := execConfigure_keeps_memories hmemories h
  obtain ⟨hentry, hstopped⟩ := configureEntry_keeps_inv hs
  have hquiet := quiet_of_inv hentry hstopped
  have hreleased := release_keeps_quiet hquiet
  rcases execConfigure_cases h with ⟨_, _, rfl⟩ | rfl | ⟨p, m, e, hp, hn, rfl⟩ | ⟨p, m, hp, hn, hfill, rfl⟩
  · exact enterIdle_raise_inv hquiet hmem
  · exact enterIdle_raise_inv hreleased hmem
  · obtain ⟨hout, _, _, _, hin, hhalf⟩ := resolve_lengths hp
    have hcarved := carve_keeps_quiet hreleased hout (by omega : 1 ≤ p.inLen)
    exact enterIdle_raise_inv hcarved hmem
  · have hcal := calFail_of_execConfigure_configured h rfl
    rw [← s.configureEntry_calFail] at hcal
    rw [← s.configureEntry_cfg] at hp hn
    exact respond_keeps_inv (boundTo_inv hreleased hcal rfl hp hn (memoriesOk_of_respond hmem) hfill) .ok []

/-! ## Every instruction -/

/-- All that START can do: refuse outside `Configured`, or enable the subsystems (rule R230). -/
theorem execStart_cases {s t : State} (h : execStart s = .next t) :
    (s.mode ≠ .configured ∧ t = s.raise .invalidState) ∨ (s.mode = .configured ∧ t = s.startBody.respond .ok []) := by
  unfold execStart at h
  split at h
  · rename_i hm
    cases h
    exact .inl ⟨hm, rfl⟩
  · rename_i hm
    cases h
    exact .inr ⟨not_not.1 hm, rfl⟩

theorem execGenerate_keeps_inv {n off : Half} {fs fe : F32} {s t : State} (hs : s.Inv)
    (h : execGenerate n off fs fe s = .next t) : t.Inv := by
  unfold execGenerate at h
  split at h
  · cases h
    exact hs
  · split at h
    · cases h
      exact hs
    · split at h
      · cases h
      · rename_i hgen
        cases h
        exact (generate_keeps_inv hs hgen :)
      · rename_i hgen
        cases h
        exact (generate_keeps_inv hs hgen :)

theorem execEmitPulse_keeps_inv {s t : State} (hs : s.Inv) (h : execEmitPulse s = .next t) : t.Inv := by
  unfold execEmitPulse at h
  split at h
  · cases h
    exact hs
  · split at h
    · cases h
      exact hs
    · split at h
      · cases h
      · cases h
        exact send_keeps_inv (s := s.consumePulse) hs 3 _

theorem exec_keeps_inv {i : Instr} {s t : State} (hs : s.Inv) (h : exec i s = .next t) : t.Inv := by
  cases i with
  | configure => exact execConfigure_keeps_inv hs h
  | start =>
    rcases execStart_cases h with ⟨_, rfl⟩ | ⟨hm, rfl⟩
    · exact hs
    · exact respond_keeps_inv (startBody_keeps_inv hs hm) .ok []
  | stop =>
    cases h
    exact stopBody_keeps_inv hs
  | setTxEnable | readStatus =>
    cases h
    exact hs
  | resolve =>
    simp only [exec, execResolve] at h
    split at h <;> cases h <;> exact hs
  | generate => exact execGenerate_keeps_inv hs h
  | emitPulse => exact execEmitPulse_keeps_inv hs h
  | sendHeartbeat =>
    cases h
    exact send_keeps_inv (s := s.drawn) hs 0 _
  | sendLog | sendReply | frameHeartbeat | frameLog | frameReply | framePulse =>
    cases h
    exact send_keeps_inv hs _ _

/-! ## The tick -/

/-- A cursor that went round its buffer is inside it. -/
theorem toNat_ofNat_mod_lt (i : Nat) {w : Word} (h : 0 < w.toNat) :
    (BitVec.ofNat 32 (i % w.toNat)).toNat < w.toNat := by
  rw [BitVec.toNat_ofNat]
  exact lt_of_le_of_lt (Nat.mod_le _ _) (Nat.mod_lt _ h)

theorem tickOutput_keeps_inv {s t : State} (hs : s.Inv) (hm : s.mode = .running) (h : tickOutput s = .ok t) :
    t.Inv := by
  obtain ⟨_, hlen, rfl⟩ := tickOutput_spec h
  obtain ⟨hcfg, hen, hmem, hunbound, hbound, hcursors⟩ := hs
  obtain ⟨_, _, _, _, ⟨_, hodDesc, _⟩, _⟩ := hbound (by simp [hm])
  obtain ⟨_, hsmp, hphase⟩ := hcursors hm
  have hround : s.odDesc.length = s.prof.outLen := by rw [hodDesc]
  rw [hround] at hlen ⊢
  exact ⟨hcfg, hen, hmem, hunbound, hbound, fun _ => ⟨toNat_ofNat_mod_lt _ hlen, hsmp, hphase⟩⟩

/-- A sample written to the input buffer lands in no element of the RampTable: where the lengths are exact, the input
buffer starts where the output buffer ends. -/
theorem rampOk_write_inBuf {s : State} {i : Nat} {vs : List Half} (hbase : s.outBuf.base = 0)
    (hexact : s.LengthsExact) (hramp : s.RampOk) :
    State.RampOk { s with buf := Memory.write s.buf (elementAddr s.inBuf i) (bytesOfHalves vs) } := by
  intro k hk
  obtain ⟨_, _, hin⟩ := hexact
  have hb : s.outBuf.base.toNat = 0 := by rw [hbase]; rfl
  have hsame := elementAt_write_of_not s s.outBuf (a := elementAddr s.inBuf i) (i := k) (bs := bytesOfHalves vs)
    (.inl (by unfold elementAddr; simp only at hk; omega))
  exact hsame ▸ hramp k hk

theorem tickSample_keeps_inv {s t : State} {adc : Half} (hs : s.Inv) (hm : s.mode = .running)
    (h : tickSample s adc = .ok t) : t.Inv := by
  obtain ⟨_, _, hfits, hlen, _, rfl⟩ := tickSample_spec h
  obtain ⟨hcfg, hen, hmem, hunbound, hbound, hcursors⟩ := hs
  obtain ⟨hcal, hreq, hprof, hgeom, hdesc, hramp⟩ := hbound (by simp [hm])
  obtain ⟨hbuf, hscr, hbufIn, hscrIn⟩ := hmem
  have ⟨_, htsf, _, _, hbase, _⟩ := hgeom
  have ⟨_, _, hsmpDesc⟩ := hdesc
  have hround : s.smpDesc.length = s.prof.inLen := by rw [hsmpDesc]
  rw [hround] at hlen ⊢
  refine ⟨hcfg, hen, ⟨Memory.write_wf hbuf _ _, hscr, Memory.write_bounded hbufIn (by simpa using hfits), hscrIn⟩,
    hunbound, fun _ => ⟨hcal, hreq, hprof, hgeom, hdesc, fun hfit => ?_⟩, fun _ => ?_⟩
  · obtain ⟨hexact, hcodes⟩ := hramp hfit
    exact ⟨hexact, rampOk_write_inBuf hbase hexact hcodes⟩
  · obtain ⟨hod, _, _⟩ := hcursors hm
    exact ⟨hod, toNat_ofNat_mod_lt _ hlen, htsf⟩

/-- A phase that is not the last of its sampler period goes on below `TSF` (rule R250). -/
theorem toNat_succ_lt {a b : Word} (hlt : a.toNat < b.toNat) (hne : a + 1 ≠ b) : (a + 1).toNat < b.toNat := by
  bv_omega

theorem tickStep_keeps_inv {s t : State} {adc : Half} (hs : s.Inv) (hm : s.mode = .running)
    (h : tickStep s adc = .ok t) : t.Inv := by
  unfold tickStep at h
  split at h
  · cases h
  · rename_i u hu
    have hui := tickOutput_keeps_inv hs hm hu
    have hum : u.mode = .running := by
      obtain ⟨_, _, rfl⟩ := tickOutput_spec hu
      exact hm
    split at h
    · exact tickSample_keeps_inv hui hum h
    · rename_i hphase
      cases h
      obtain ⟨hcfg, hen, hmem, hunbound, hbound, hcursors⟩ := hui
      obtain ⟨_, _, _, _, ⟨htmDesc, _⟩, _⟩ := hbound (by simp [hum])
      obtain ⟨hod, hsmp, htsf⟩ := hcursors hum
      rw [htmDesc] at hphase
      exact ⟨hcfg, hen, hmem, hunbound, hbound, fun _ => ⟨hod, hsmp, toNat_succ_lt htsf hphase⟩⟩

/-! ## Every turn -/

theorem resetStep_inv {s : State} (h : configOk s.cfg = true) (b : Bool) : (s.resetStep b).Inv :=
  ⟨h, ⟨rfl, rfl, rfl, rfl⟩, ⟨.nil, .nil, nofun, nofun⟩, fun _ => ⟨rfl, rfl, rfl, rfl, rfl, rfl, rfl⟩, nofun, nofun⟩

theorem takeTurn_keeps_inv {s t : State} {tn : Turn} (hs : s.Inv) (h : takeTurn tn s = .next t) : t.Inv := by
  rcases takeTurn_cases h with rfl | ⟨c, r, rfl⟩ | ⟨i, c, f, _, hexec⟩ | ⟨adc, _, hm, htick⟩ | ⟨w, _, _, rfl⟩
    | ⟨b, _, rfl⟩
  · exact hs
  · exact hs
  · exact exec_keeps_inv (s := { s with cmd := c, frameReq := f }) hs hexec
  · exact tickStep_keeps_inv hs hm htick
  · exact hs
  · obtain ⟨hcfg, _⟩ := hs
    exact resetStep_inv hcfg b

/-! ## What the instructions and the tick leave unchanged (rules R34, R37, R42, R45) -/

@[simp] theorem handlerCount_append (h evs : List Event) :
    handlerCount (h ++ evs) = handlerCount h + handlerCount evs := by
  induction h with
  | nil => simp [handlerCount]
  | cons e h ih => cases e <;> simp [handlerCount, ih, Nat.add_assoc]

@[simp] theorem handlerCount_releaseEvents (s : State) : handlerCount (releaseEvents s) = 0 := by
  unfold releaseEvents
  split <;> split <;> rfl

/-- Records of frames are no handler runs. -/
theorem handlerCount_of_frames {evs : List Event} (h : ∀ e ∈ evs, ∃ F, e = Event.frame F) : handlerCount evs = 0 := by
  induction evs with
  | nil => rfl
  | cons e evs ih =>
    obtain ⟨F, rfl⟩ := h e List.mem_cons_self
    exact ih fun e he => h e (List.mem_cons_of_mem _ he)

/-- The pieces of state that no instruction writes: the parameters, the calibration answer and the pulse record; and no
instruction adds a handler run to the history (rules R7, R34, R45, R93). -/
structure KeepsPulseRecord (s t : State) : Prop where
  cfg : t.cfg = s.cfg
  calFail : t.calFail = s.calFail
  seq : t.seq = s.seq
  ts : t.ts = s.ts
  parity : t.parity = s.parity
  irq : t.irq = s.irq
  handlerRuns : handlerCount t.history = handlerCount s.history

theorem execConfigure_keepsPulseRecord {d g : Half} {fs fe fr : F32} {s t : State}
    (h : execConfigure d g fs fe fr s = .next t) : KeepsPulseRecord s t := by
  rcases execConfigure_cases h with ⟨_, _, rfl⟩ | rfl | ⟨p, m, e, _, _, rfl⟩ | ⟨p, m, _, _, _, rfl⟩
  · constructor <;> simp
  · constructor <;> simp
  · constructor <;> simp [handlerCount]
  · constructor <;> simp [handlerCount]

theorem exec_keepsPulseRecord {i : Instr} {s t : State} (h : exec i s = .next t) : KeepsPulseRecord s t := by
  by_cases hconf : isConfigure i = true
  · cases i with
    | configure => exact execConfigure_keepsPulseRecord h
    | _ => cases hconf
  · by_cases hstart : i = .start
    · subst hstart
      rcases execStart_cases h with ⟨_, rfl⟩ | ⟨_, rfl⟩ <;> constructor <;> rfl
    · by_cases hstop : i = .stop
      · subst hstop
        cases h
        constructor <;> rfl
      · obtain ⟨_, _, _, _, evs, _, _, rfl, hframes, _⟩ := exec_frame h (by simpa using hconf) hstart hstop
        exact ⟨rfl, rfl, rfl, rfl, rfl, rfl, by simp [handlerCount_of_frames hframes]⟩

/-- The binding of the block is the same: `REQ`, `PROF`, the descriptors and the geometry of both buffers. -/
def SameBinding (s t : State) : Prop :=
  t.req = s.req ∧ t.prof = s.prof ∧ t.tmDesc = s.tmDesc ∧ t.odDesc = s.odDesc ∧ t.smpDesc = s.smpDesc
    ∧ t.outBuf = s.outBuf ∧ t.inBuf = s.inBuf

theorem exec_sameBinding {i : Instr} {s t : State} (hconf : isConfigure i = false) (h : exec i s = .next t) :
    SameBinding s t := by
  by_cases hstart : i = .start
  · subst hstart
    rcases execStart_cases h with ⟨_, rfl⟩ | ⟨_, rfl⟩
    · exact ⟨rfl, rfl, rfl, rfl, rfl, rfl, rfl⟩
    · exact ⟨rfl, rfl, rfl, rfl, rfl, rfl, rfl⟩
  · by_cases hstop : i = .stop
    · subst hstop
      cases h
      exact ⟨rfl, rfl, rfl, rfl, rfl, rfl, rfl⟩
    · obtain ⟨_, _, _, _, _, _, _, rfl, _⟩ := exec_frame h hconf hstart hstop
      exact ⟨rfl, rfl, rfl, rfl, rfl, rfl, rfl⟩

theorem tickTurn_sameBinding {s t : State} {adc : Half} (h : tickTurn s adc = .next t) : SameBinding s t := by
  unfold tickTurn at h
  split at h
  · split at h
    · cases h
    · rename_i htick
      cases h
      obtain ⟨_, _, _, _, _, _, rfl, _⟩ := tickStep_frame htick
      exact ⟨rfl, rfl, rfl, rfl, rfl, rfl, rfl⟩
  · cases h
    exact ⟨rfl, rfl, rfl, rfl, rfl, rfl, rfl⟩

theorem handlerTurn_sameBinding {s t : State} {w : Word} (h : handlerTurn s w = .next t) : SameBinding s t := by
  unfold handlerTurn at h
  split at h <;> cases h <;> exact ⟨rfl, rfl, rfl, rfl, rfl, rfl, rfl⟩

/-! ## What a turn does to the parameters, `CAL_FAIL` and `SEQ` -/

/-- No turn writes the parameters, and only a reset the calibration answer (rules R7, R34). -/
theorem takeTurn_parameters {s t : State} {tn : Turn} (h : takeTurn tn s = .next t) :
    t.cfg = s.cfg ∧ (t.calFail = s.calFail ∨ tn = .reset t.calFail) := by
  rcases takeTurn_cases h with rfl | ⟨c, r, rfl⟩ | ⟨i, c, f, _, hexec⟩ | ⟨adc, _, _, htick⟩ | ⟨w, _, _, rfl⟩
    | ⟨b, rfl, rfl⟩
  · exact ⟨rfl, .inl rfl⟩
  · exact ⟨rfl, .inl rfl⟩
  · have hkeep := exec_keepsPulseRecord hexec
    exact ⟨hkeep.cfg, .inl hkeep.calFail⟩
  · obtain ⟨_, _, _, _, _, _, rfl, _⟩ := tickStep_frame htick
    exact ⟨rfl, .inl rfl⟩
  · exact ⟨rfl, .inl rfl⟩
  · exact ⟨rfl, .inr rfl⟩

/-- A handler run adds one to the sequence number and one record to the history; no other turn but a reset touches
either count (rules R42, R247). -/
theorem takeTurn_keeps_seqCounts {s t : State} {tn : Turn} (hs : s.SeqCounts) (h : takeTurn tn s = .next t) :
    t.SeqCounts := by
  rcases takeTurn_cases h with rfl | ⟨c, r, rfl⟩ | ⟨i, c, f, _, hexec⟩ | ⟨adc, _, _, htick⟩ | ⟨w, _, _, rfl⟩
    | ⟨b, rfl, rfl⟩
  · exact hs
  · exact hs
  · have hkeep := exec_keepsPulseRecord hexec
    rw [State.SeqCounts, hkeep.seq, hkeep.handlerRuns]
    exact hs
  · obtain ⟨_, _, _, _, _, _, rfl, _⟩ := tickStep_frame htick
    simpa [State.SeqCounts, handlerCount] using hs
  · simp [State.SeqCounts, handlerCount, BitVec.ofNat_add, ← show s.seq = _ from hs]
  · rfl

/-! ## A step whose turn is scheduled -/

theorem step_of_turns {s : State} {tn : Turn} {ts : List Turn} (hc : configOk s.cfg = true) (ht : s.turns = tn :: ts) :
    step s = takeTurn tn { s with turns := ts } := by
  simp [step, hc, ht]

/-! ## READ_STATUS: its response and `STATUS_WORD` (rules R54, R118, R242) -/

/-- An `OK` response with one result word has `NRES = 1`. -/
theorem responseWords_ok_singleton (w : Word) : responseWords .ok [w] = [0x00010000#32, w] := by
  have hheader : responseHeader Status.ok.code Status.ok.sub 1 = 0x00010000#32 := by decide
  rw [responseWords, List.length_singleton, hheader]

/-- The low two bits are `STATE`. -/
theorem statusWord_mode (s : State) : s.statusWord.extractLsb' 0 2 = s.mode.bits := by
  ext k hk
  simp only [State.statusWord, BitVec.getElem_extractLsb', BitVec.getLsbD_append]
  rcases k with _ | _ | k
  · simp
  · simp
  · omega

/-- Each bit above `STATE`: the nine flags, and zeros. -/
theorem statusWord_getLsbD (s : State) (k : Nat) :
    s.statusWord.getLsbD (k + 2)
      = [s.calFail, s.pulsePending, s.txEn, s.parity, s.tmEn, s.odEn, s.odOutEn, s.smpEn, s.irq].getD k false := by
  simp only [State.statusWord, BitVec.getLsbD_append]
  rcases k with _ | _ | _ | _ | _ | _ | _ | _ | _ | k <;> simp

end Sys2Proof.Machine

namespace Sys2Proof.Proofs

open Sys2Proof.Machine

/-- Settles O21: a step is a turn of one agent, and every turn keeps the invariant. -/
theorem stepKeepsTheInvariant : Obligations.StepKeepsTheInvariant := by
  intro s t hs h
  obtain ⟨_, ts, dr, hturn⟩ := step_next h
  exact takeTurn_keeps_inv (s := { s with turns := ts, draws := dr }) hs hturn

/-- Settles O15: the pulse record is among the pieces of state that no instruction writes. -/
theorem commandsLeaveThePulseRecord : Obligations.CommandsLeaveThePulseRecord := by
  intro i s t h
  have hkeep := exec_keepsPulseRecord h
  exact ⟨hkeep.seq, hkeep.ts, hkeep.parity, hkeep.irq⟩

/-- Settles O16: of the turns only a reset writes the calibration answer, and none the parameters. -/
theorem onlyResetWritesCalFail : Obligations.OnlyResetWritesCalFail := by
  intro s t h
  obtain ⟨_, ts, dr, hturn⟩ := step_next h
  obtain ⟨hcfg, hcal⟩ := takeTurn_parameters hturn
  exact ⟨hcfg, fun hne => hcal.resolve_left hne⟩

/-- Settles O17: one frame for the instructions, one for the tick and one for the handler. -/
theorem onlyConfigureWritesTheBinding : Obligations.OnlyConfigureWritesTheBinding :=
  ⟨fun _ _ _ hconf h => exec_sameBinding hconf h, fun _ _ _ h => tickTurn_sameBinding h,
    fun _ _ _ h => handlerTurn_sameBinding h⟩

/-- Settles O27: every turn moves `SEQ` and the count of handler runs together. -/
theorem stepKeepsSequenceCount : Obligations.StepKeepsSequenceCount := by
  intro s t hs h
  obtain ⟨_, ts, dr, hturn⟩ := step_next h
  exact takeTurn_keeps_seqCounts (s := { s with turns := ts, draws := dr }) hs hturn

/-- Settles O35: the word is `STATUS_WORD`, read bit by bit. -/
theorem readStatusShowsEveryFlag : Obligations.ReadStatusShowsEveryFlag := by
  intro s
  have hbit := statusWord_getLsbD s
  refine ⟨s.statusWord, ?_, ?_, hbit 0, hbit 1, hbit 2, hbit 3, hbit 4, hbit 5, hbit 6, hbit 7, hbit 8, ?_⟩
  · rw [exec, execReadStatus, State.respond, responseWords_ok_singleton]
  · rw [statusWord_mode]
    cases s.mode <;> rfl
  · intro k hk
    obtain ⟨j, rfl⟩ := Nat.exists_eq_add_of_le' hk
    exact hbit (j + 9)

/-- Settles O13: the scheduled turn is the host's. -/
theorem hostDeliversOneCommand : Obligations.HostDeliversOneCommand := by
  intro s ts w hc ht
  rw [step_of_turns hc ht]
  rfl

/-- Settles O30: `start_body()` and the `OK` response. -/
theorem startEnablesTheSubsystems : Obligations.StartEnablesTheSubsystems := by
  intro s hm
  simp only [exec, execStart, hm, ne_eq, not_true_eq_false, if_false]
  rw [State.respond, responseWords_ok_nil]
  rfl

/-- Settles O34: one flag and the `OK` response; `TRIG_OUT` is computed from the flag (rule R63). -/
theorem setTxEnableWritesTheFlag : Obligations.SetTxEnableWritesTheFlag := by
  intro s v
  refine ⟨State.respond { s with txEn := v } .ok [], rfl, ?_, rfl⟩
  rw [State.respond, responseWords_ok_nil]

end Sys2Proof.Proofs

/-! SUPPORT. The statements on 20_memory.md: no step from a state of the invariant ends in a model-internal fault (rules R81,
R86, R88), and every step keeps both memories canonical (rules R80, R82). -/

namespace Sys2Proof.Machine

/-! ## The output buffer: a ramp in its region never faults (rules R81, R86, R88) -/

/-- A ramp inside an output buffer that starts the memory and fits it is written, or fails by its codes. -/
theorem generate_answers {s : State} {len n off : Nat} (fs fe : F32) (hbase : s.outBuf.base = 0)
    (hfits : 2 * len ≤ s.cfg.bufCapacity) (hregion : off + n ≤ len) : ∃ r, generate s len fs fe n off = .ok r := by
  unfold generate
  split
  · exact ⟨_, rfl⟩
  · rename_i vs hcodes
    have hlen : vs.length = n := (rampCodes_spec hcodes).1
    have hb : s.outBuf.base.toNat = 0 := by rw [hbase]; rfl
    rw [writeElements_eq_ok (by omega) (by omega) (by unfold elementAddr; omega)]
    exact ⟨_, rfl⟩

/-- The filling of an output buffer that starts the memory and fits it never faults: both halves of a triangle lie inside
the buffer. -/
theorem fillRamp_answers {s : State} (q : Request) {len : Nat} (hbase : s.outBuf.base = 0)
    (hfits : 2 * len ≤ s.cfg.bufCapacity) : ∃ r, fillRamp s q len = .ok r := by
  unfold fillRamp
  split
  · exact generate_answers _ _ hbase hfits (by omega)
  · obtain ⟨r, hup⟩ := generate_answers (n := (len + 1) / 2) (off := 0) q.fStart q.fStop hbase hfits (by omega)
    rw [hup]
    cases r with
    | rangeError e u => exact ⟨_, rfl⟩
    | done u =>
      have hframe : u = { s with buf := u.buf } := (generate_frame hup).1
      rw [hframe]
      exact generate_answers _ _ hbase hfits (by omega)

/-! ## Instructions that access elements -/

/-- CONFIGURE never faults, from any state: it fills the buffer that it has just allocated. -/
theorem execConfigure_noFault (d g : Half) (fs fe fr : F32) (s : State) : NoFault (execConfigure d g fs fe fr s) := by
  unfold execConfigure configureChecked
  split
  · nofun
  · split
    · nofun
    · rename_i p _
      unfold configureAllocate
      rcases allocate_spec s.configureEntry p with ⟨_, halloc⟩ | ⟨hneed, halloc⟩
      · rw [halloc]
        nofun
      · unfold bytesNeeded at hneed
        obtain ⟨r, hfill⟩ := fillRamp_answers (s := s.configureEntry.release.carve p) ⟨true, d, g, fs, fe, fr⟩
          (len := p.outLen) rfl (by simp only [State.carve_cfg, State.release_cfg]; omega)
        simp only [halloc, configureRamp, hfill]
        cases r <;> nofun

/-- GENERATE from a state of the invariant never faults: it has checked its region against a bound `OUT_BUF`. -/
theorem execGenerate_noFault {s : State} (hs : s.Inv) (n off : Half) (fs fe : F32) :
    NoFault (execGenerate n off fs fe s) := by
  obtain ⟨_, _, _, _, hbound, _⟩ := hs
  unfold execGenerate
  split
  · nofun
  · rename_i hmode
    split
    · nofun
    · obtain ⟨_, _, _, ⟨_, _, _, _, hbase, hlen, hfits, _⟩, _⟩ := hbound (by simp [not_not.1 hmode])
      rw [← hlen] at hfits
      obtain ⟨r, hgen⟩ := generate_answers (n := n.toNat) (off := off.toNat) fs fe hbase hfits (by omega)
      rw [hgen]
      cases r <;> nofun

/-- The samples of the drained half of bound buffers are read: each half lies inside `IN_BUF` (rules R171, R285). -/
theorem pulseSamples_answers {s : State} (hs : s.GeometryOk) : ∃ d, pulseSamples s = .ok d := by
  obtain ⟨_, _, _, heven, _, _, _, hbase, hlen, hfits⟩ := hs
  unfold pulseSamples
  split
  · exact ⟨_, rfl⟩
  · have hhalves : 2 * samplesPerPulse s = s.inBuf.len.toNat := by
      rw [samplesPerPulse, hlen]
      omega
    have hdrained : drainedHalf s * samplesPerPulse s + samplesPerPulse s ≤ s.inBuf.len.toNat := by
      unfold drainedHalf
      split <;> omega
    rw [← hlen] at hfits
    exact ⟨_, readElements_eq_ok hdrained hbase (by unfold elementAddr; omega)⟩

/-- EMIT_PULSE from a state of the invariant never faults. -/
theorem execEmitPulse_noFault {s : State} (hs : s.Inv) : NoFault (execEmitPulse s) := by
  obtain ⟨_, _, _, _, hbound, _⟩ := hs
  unfold execEmitPulse
  split
  · nofun
  · rename_i hmode
    split
    · nofun
    · obtain ⟨_, _, _, hgeom, _⟩ := hbound hmode
      obtain ⟨d, hread⟩ := pulseSamples_answers hgeom
      rw [hread]
      nofun

/-- No instruction faults from a state of the invariant: only three of them access elements. -/
theorem exec_noFault {s : State} (hs : s.Inv) (i : Instr) : NoFault (exec i s) := by
  cases i with
  | configure d g fs fe fr => exact execConfigure_noFault d g fs fe fr s
  | generate n off fs fe => exact execGenerate_noFault hs n off fs fe
  | emitPulse => exact execEmitPulse_noFault hs
  | start =>
    simp only [exec, execStart]
    split <;> nofun
  | resolve d =>
    simp only [exec, execResolve]
    split <;> nofun
  | stop | setTxEnable | readStatus | sendHeartbeat | sendLog | sendReply => nofun
  | frameHeartbeat | frameLog | frameReply | framePulse => nofun

/-! ## The tick -/

/-- A remainder by a positive length is taken (rule R11). -/
theorem cursorMod_eq_ok (i : Nat) {n : Nat} (h : 0 < n) : cursorMod i n = .ok (BitVec.ofNat 32 (i % n)) :=
  if_neg (by omega)

/-- A running block of the invariant emits the code at its output cursor. -/
theorem tickOutput_answers {s : State} (hs : s.Inv) (hm : s.mode = .running) : ∃ t, tickOutput s = .ok t := by
  obtain ⟨_, _, _, _, hbound, hcursors⟩ := hs
  obtain ⟨_, _, _, ⟨hpos, _, _, _, hbase, hlen, hfits, _⟩, ⟨_, hodDesc, _⟩, _⟩ := hbound (by simp [hm])
  obtain ⟨hod, _, _⟩ := hcursors hm
  have hb : s.outBuf.base.toNat = 0 := by rw [hbase]; rfl
  have hround : s.odDesc.length = s.prof.outLen := by rw [hodDesc]
  rw [tickOutput, readElement_eq_ok (by rw [hlen]; exact hod) (by unfold elementAddr; omega)
    (by unfold elementAddr; omega)]
  simp only [hround, cursorMod_eq_ok _ hpos]
  exact ⟨_, rfl⟩

/-- A running block of the invariant stores the sample at its input cursor; half of `IN_LEN` is positive. -/
theorem tickSample_answers {s : State} (adc : Half) (hs : s.Inv) (hm : s.mode = .running) :
    ∃ t, tickSample s adc = .ok t := by
  obtain ⟨_, _, _, _, hbound, hcursors⟩ := hs
  obtain ⟨_, _, _, ⟨_, _, htwo, _, _, _, _, hbase, hlen, hfits⟩, ⟨_, _, hsmpDesc⟩, _⟩ := hbound (by simp [hm])
  obtain ⟨_, hsmp, _⟩ := hcursors hm
  have hround : s.smpDesc.length = s.prof.inLen := by rw [hsmpDesc]
  rw [tickSample, writeElements_eq_ok (vs := [adc]) (by rw [hlen]; exact hsmp) hbase
    (by simp only [elementAddr, List.length_singleton]; omega)]
  simp only [hround, cursorMod_eq_ok _ (show 0 < s.prof.inLen.toNat by omega),
    cursorMod_eq_ok _ (show 0 < s.prof.inLen.toNat / 2 by omega)]
  exact ⟨_, rfl⟩

/-- A tick of a running block of the invariant never faults. -/
theorem tickStep_answers {s : State} (adc : Half) (hs : s.Inv) (hm : s.mode = .running) :
    ∃ t, tickStep s adc = .ok t := by
  obtain ⟨u, hu⟩ := tickOutput_answers hs hm
  rw [tickStep, hu]
  have hui := tickOutput_keeps_inv hs hm hu
  have hum : u.mode = .running := by
    obtain ⟨_, _, rfl⟩ := tickOutput_spec hu
    exact hm
  simp only
  split
  · exact tickSample_answers adc hui hum
  · exact ⟨_, rfl⟩

/-! ## Turns and steps that fault -/

/-- A turn faults only in an instruction or in the tick of a running block. -/
theorem takeTurn_fault {tn : Turn} {s : State} {f : Fault} (h : takeTurn tn s = .fault f) :
    (∃ i c fr, exec i { s with cmd := c, frameReq := fr } = .fault f)
      ∨ (∃ adc, s.mode = .running ∧ tickStep s adc = .error f) := by
  cases tn with
  | deliver w =>
    simp only [takeTurn, deliverTurn] at h
    split at h <;> cases h
  | command =>
    simp only [takeTurn, fetchCommand] at h
    split at h
    · cases h
    · cases h
    · exact .inl ⟨_, _, s.frameReq, h⟩
  | tick adc =>
    simp only [takeTurn, tickTurn] at h
    split at h
    · rename_i hm
      split at h
      · rename_i htick
        cases h
        exact .inr ⟨adc, hm, htick⟩
      · cases h
    · cases h
  | handler w =>
    simp only [takeTurn, handlerTurn] at h
    split at h <;> cases h
  | framer =>
    simp only [takeTurn, fetchFrame] at h
    split at h
    · cases h
    · split at h
      · cases h
      · exact .inl ⟨_, s.cmd, [], h⟩
  | reset b => cases h

theorem takeTurn_noFault {s : State} (hs : s.Inv) (tn : Turn) : NoFault (takeTurn tn s) := by
  intro f h
  rcases takeTurn_fault h with ⟨i, c, fr, hexec⟩ | ⟨adc, hm, htick⟩
  · exact exec_noFault (s := { s with cmd := c, frameReq := fr }) hs i f hexec
  · obtain ⟨t, ht⟩ := tickStep_answers adc hs hm
    rw [ht] at htick
    cases htick

/-! ## Both memories stay canonical from every state (rules R80, R82) -/

/-- What CONFIGURE does to the memories once its buffers are allocated: it fills `BUF` by block writes and leaves `SCR`. -/
theorem configureRamp_memories {q : Request} {p : TimingProfile} {s t : State} (h : configureRamp q p s = .next t) :
    (Memory.wf s.buf → Memory.wf t.buf) ∧ t.scr = s.scr := by
  have hfilled {r : RampResult} (hfill : fillRamp s q p.outLen = .ok r) :
      (Memory.wf s.buf → Memory.wf r.state.buf) ∧ r.state.scr = s.scr := by
    obtain ⟨hframe, hwf⟩ := fillRamp_frame hfill
    exact ⟨hwf, by rw [hframe]⟩
  unfold configureRamp at h
  split at h
  · cases h
  · rename_i hfill
    cases h
    exact (hfilled hfill :)
  · rename_i hfill
    cases h
    exact (hfilled hfill :)

theorem execConfigure_memories {d g : Half} {fs fe fr : F32} {s t : State} (h : execConfigure d g fs fe fr s = .next t) :
    (Memory.wf s.buf → Memory.wf t.buf) ∧ t.scr = s.scr := by
  rw [← s.configureEntry_buf, ← s.configureEntry_scr]
  unfold execConfigure configureChecked at h
  split at h
  · cases h
    exact ⟨id, rfl⟩
  · split at h
    · cases h
      exact ⟨id, rfl⟩
    · rename_i p _
      unfold configureAllocate at h
      rcases allocate_spec s.configureEntry p with ⟨_, halloc⟩ | ⟨_, halloc⟩
      · rw [halloc] at h
        cases h
        exact ⟨id, rfl⟩
      · rw [halloc] at h
        obtain ⟨hbuf, hscr⟩ := configureRamp_memories h
        exact ⟨fun hw => hbuf (Memory.write_wf hw _ _), hscr⟩

theorem exec_keeps_canonical {i : Instr} {s t : State} (hbuf : Memory.wf s.buf) (hscr : Memory.wf s.scr)
    (h : exec i s = .next t) : Memory.wf t.buf ∧ Memory.wf t.scr := by
  cases i with
  | configure =>
    obtain ⟨hkeep, hsame⟩ := execConfigure_memories h
    exact ⟨hkeep hbuf, hsame ▸ hscr⟩
  | start => rcases execStart_cases h with ⟨_, rfl⟩ | ⟨_, rfl⟩ <;> exact ⟨hbuf, hscr⟩
  | stop =>
    cases h
    exact ⟨hbuf, hscr⟩
  | _ =>
    obtain ⟨_, _, _, _, _, _, _, rfl, _, hkeepBuf, hkeepScr⟩ := exec_frame h rfl nofun nofun
    exact ⟨hkeepBuf hbuf, hkeepScr hscr⟩

theorem takeTurn_keeps_canonical {s t : State} {tn : Turn} (hbuf : Memory.wf s.buf) (hscr : Memory.wf s.scr)
    (h : takeTurn tn s = .next t) : Memory.wf t.buf ∧ Memory.wf t.scr := by
  rcases takeTurn_cases h with rfl | ⟨c, r, rfl⟩ | ⟨i, c, f, _, hexec⟩ | ⟨adc, _, _, htick⟩ | ⟨w, _, _, rfl⟩
    | ⟨b, _, rfl⟩
  · exact ⟨hbuf, hscr⟩
  · exact ⟨hbuf, hscr⟩
  · exact exec_keeps_canonical (s := { s with cmd := c, frameReq := f }) hbuf hscr hexec
  · obtain ⟨_, _, _, _, _, _, rfl, _, hkeep⟩ := tickStep_frame htick
    exact ⟨hkeep hbuf, hscr⟩
  · exact ⟨hbuf, hscr⟩
  · exact ⟨.nil, .nil⟩

end Sys2Proof.Machine

namespace Sys2Proof.Proofs

open Sys2Proof.Machine

/-- Settles O22: a step is a refusal or a turn of one agent, and no turn faults from a state of the invariant. -/
theorem invariantStatesNeverFault : Obligations.InvariantStatesNeverFault := by
  intro s hs
  rcases step_cases (s := s) rfl with ⟨_, ho⟩ | ⟨_, tn, ts, _, ho⟩ | ⟨_, _, ho⟩
  · rw [ho]
    nofun
  · rw [ho]
    exact takeTurn_noFault (s := { s with turns := ts }) hs tn
  · rw [ho]
    exact takeTurn_noFault (s := s.drawn) hs _

/-- Settles O24: every turn writes the memories by blocks, and a block write keeps the canonical form. -/
theorem stepKeepsMemoriesCanonical : Obligations.StepKeepsMemoriesCanonical := by
  intro s t hbuf hscr h
  obtain ⟨_, ts, dr, hturn⟩ := step_next h
  exact takeTurn_keeps_canonical (s := { s with turns := ts, draws := dr }) hbuf hscr hturn

/-- Settles O8: the scheduled turn is the sequencer's, and it executes what it decodes. -/
theorem stepRunsTheDecodedCommand : Obligations.StepRunsTheDecodedCommand := by
  intro s ts i rest hc ht hdecode
  rw [step_of_turns hc ht]
  exact takeTurn_command_instr (s := { s with turns := ts }) hdecode

end Sys2Proof.Proofs

/-! SUPPORT. The statements on 30_encoding.md, the command decoder: decoding inverts encoding, a command takes exactly
its own words, and which commands are illegal (rules R110 to R117). -/

namespace Sys2Proof

/-! ## The command decoder (rules R110, R115) -/

theorem one_le_commandLength (w0 : Word) : 1 ≤ commandLength w0 := by
  unfold commandLength
  split <;> omega

/-- A command's words are all there as soon as there are `L(w0)` of them. -/
theorem commandReady_iff (w0 : Word) (ws : List Word) :
    commandReady (w0 :: ws) = true ↔ commandLength w0 ≤ (w0 :: ws).length := by
  simp [commandReady]

/-- Without its first `L(w0)` words a command leaves what follows its operand words. -/
theorem drop_commandLength (w0 : Word) (ws : List Word) :
    (w0 :: ws).drop (commandLength w0) = ws.drop (commandLength w0 - 1) := by
  obtain ⟨n, hn⟩ := Nat.exists_eq_add_of_le' (one_le_commandLength w0)
  simp [hn]

theorem decodeCommand_of_not_ready {w0 : Word} {ws : List Word} (h : commandReady (w0 :: ws) = false) :
    decodeCommand (w0 :: ws) = .waiting := by
  simp [decodeCommand, h]

theorem decodeCommand_of_ok {w0 : Word} {ws : List Word} {i : Instr} (hready : commandReady (w0 :: ws) = true)
    (h : decodeOperands w0 (ws.take (commandLength w0 - 1)) = .ok i) :
    decodeCommand (w0 :: ws) = .instr i ((w0 :: ws).drop (commandLength w0)) := by
  simp [decodeCommand, hready, h, drop_commandLength]

theorem decodeCommand_of_error {w0 : Word} {ws : List Word} {why : IllegalSub}
    (hready : commandReady (w0 :: ws) = true)
    (h : decodeOperands w0 (ws.take (commandLength w0 - 1)) = .error why) :
    decodeCommand (w0 :: ws) = .illegal why ((w0 :: ws).drop (commandLength w0)) := by
  simp [decodeCommand, hready, h, drop_commandLength]

/-- A whole command is illegal exactly where its operands do not decode, and for that reason. -/
theorem decodeCommand_eq_illegal_iff {w0 : Word} {ws : List Word} (hready : commandReady (w0 :: ws) = true)
    (why : IllegalSub) :
    decodeCommand (w0 :: ws) = .illegal why ((w0 :: ws).drop (commandLength w0))
      ↔ decodeOperands w0 (ws.take (commandLength w0 - 1)) = .error why := by
  cases hops : decodeOperands w0 (ws.take (commandLength w0 - 1)) with
  | ok i => simp [decodeCommand_of_ok hready hops]
  | error e => simp [decodeCommand_of_error hready hops]

/-- A command whose operand words are as many as its header asks for, decoded with whatever follows it. -/
theorem decodeCommand_append {w0 : Word} {ops : List Word} {i : Instr}
    (hlen : (w0 :: ops).length = commandLength w0) (h : decodeOperands w0 ops = .ok i) (rest : List Word) :
    decodeCommand (w0 :: ops ++ rest) = .instr i rest := by
  have hready : commandReady (w0 :: (ops ++ rest)) = true := by
    rw [commandReady_iff, ← hlen]
    simp
  have hops : commandLength w0 - 1 = ops.length := by simp [← hlen]
  have htake : (ops ++ rest).take (commandLength w0 - 1) = ops := by rw [hops, List.take_left]
  rw [List.cons_append, decodeCommand_of_ok hready (htake.symm ▸ h), drop_commandLength, hops, List.drop_left]

/-! ## Decoding inverts encoding (rules R111 to R114) -/

/-- The length field of a text that fits it (rules R112, R150). -/
theorem toNat_textLength {text : List Byte} (h : textFits text = true) :
    (BitVec.ofNat 16 text.length).toNat = text.length := by
  have hle : text.length ≤ 65535 := of_decide_eq_true h
  rw [BitVec.toNat_ofNat]
  omega

/-- The operands of an encoded command, one case for each row of rule R112. -/
theorem decodeOperands_encodeCommand {i : Instr} {w0 : Word} {ops : List Word} (hwf : wellFormed i = true)
    (h : encodeCommand i = some (w0 :: ops)) : decodeOperands w0 ops = .ok i := by
  cases i with
  | configure | generate =>
    cases h
    simp [decodeOperands, assignedOpcode, decodeReserved, operandWord]
  | start | stop | readStatus | emitPulse | sendHeartbeat =>
    cases h
    simp [decodeOperands, assignedOpcode, decodeBare]
  | setTxEnable enable =>
    cases h
    cases enable <;> simp [decodeOperands, assignedOpcode, decodeTxEnable]
  | resolve =>
    cases h
    simp [decodeOperands, assignedOpcode]
  | sendLog category severity text =>
    cases h
    simp only [decodeOperands, assignedOpcode, opField_headerWord, rsvField_headerWord, highHalf_headerWord,
      toNat_textLength hwf]
    simp [operandWord, unpackText_packText]
  | sendReply status text =>
    cases h
    simp only [decodeOperands, assignedOpcode, opField_headerWord, rsvField_headerWord, highHalf_headerWord,
      toNat_textLength hwf]
    simp [operandWord, unpackText_packText, decodeReserved]
  | frameHeartbeat | frameLog | frameReply | framePulse => cases h

/-- Every encoding is as long as its own first word or its own size field says (rules R112, R115, R140). -/
theorem encodedLength (i : Instr) : Laws.EncodedLength.Statement i := by
  cases i with
  | configure => exact Laws.EncodedLength.configure _ _ _ _ _
  | start => exact Laws.EncodedLength.start
  | stop => exact Laws.EncodedLength.stop
  | setTxEnable => exact Laws.EncodedLength.setTxEnable _
  | readStatus => exact Laws.EncodedLength.readStatus
  | resolve => exact Laws.EncodedLength.resolve _
  | generate => exact Laws.EncodedLength.generate _ _ _ _
  | emitPulse => exact Laws.EncodedLength.emitPulse
  | sendHeartbeat => exact Laws.EncodedLength.sendHeartbeat
  | sendLog => exact Laws.EncodedLength.sendLog _ _ _
  | sendReply => exact Laws.EncodedLength.sendReply _ _
  | frameHeartbeat => exact Laws.EncodedLength.frameHeartbeat _
  | frameLog => exact Laws.EncodedLength.frameLog _ _ _
  | frameReply => exact Laws.EncodedLength.frameReply _ _
  | framePulse => exact Laws.EncodedLength.framePulse _ _ _ _ _ _ _ _ _

/-- The words of a command are a header word and as many operand words as it asks for. -/
theorem encodeCommand_length {i : Instr} {ws : List Word} (hwf : wellFormed i = true)
    (h : encodeCommand i = some ws) : ∃ w0 ops, ws = w0 :: ops ∧ ws.length = commandLength w0 := by
  have hlen := encodedLength i hwf 0
  rwa [encode, h] at hlen

/-! ## Illegal commands (rules R116, R117, R302) -/

/-- A field that rule R116 reserves, in `w1` or in the immediate, is not 0. -/
def reservedFieldSet (op : Nat) (w0 w1 : Word) : Prop :=
  (op = 1 ∨ op = 7 ∨ op = 11) ∧ highHalf w1 ≠ 0
    ∨ (op = 2 ∨ op = 3 ∨ op = 5 ∨ op = 8 ∨ op = 9) ∧ (highHalf w0).toNat ≠ 0

theorem decodeReserved_eq_error_iff (w1 : Word) (i : Instr) (why : IllegalSub) :
    decodeReserved w1 i = .error why ↔ why = .reservedBits ∧ highHalf w1 ≠ 0 := by
  unfold decodeReserved
  split <;> simp_all [eq_comm]

theorem decodeBare_eq_error_iff (w0 : Word) (i : Instr) (why : IllegalSub) :
    decodeBare w0 i = .error why ↔ why = .reservedBits ∧ (highHalf w0).toNat ≠ 0 := by
  have himm : (highHalf w0).toNat = 0 ↔ highHalf w0 = 0 := by
    rw [← BitVec.toNat_inj]
    rfl
  rw [Ne, himm]
  unfold decodeBare
  split <;> simp_all [eq_comm]

theorem decodeTxEnable_eq_error_iff (imm : Half) (why : IllegalSub) :
    decodeTxEnable imm = .error why ↔ why = .badImmediate ∧ 2 ≤ imm.toNat := by
  unfold decodeTxEnable
  split
  · simp_all
  · split
    · simp_all
    · have htwo : 2 ≤ imm.toNat := by bv_omega
      simp [htwo, eq_comm]

/-- An unassigned opcode is unknown whatever its other fields are (rules R117, R302). -/
theorem decodeOperands_of_unassigned {w0 : Word} (ops : List Word)
    (h : (opField w0).toNat = 0 ∨ 12 ≤ (opField w0).toNat) : decodeOperands w0 ops = .error .unknownOpcode := by
  have hop : assignedOpcode (opField w0) = false := by
    simp only [assignedOpcode, decide_eq_false_iff_not]
    omega
  rw [decodeOperands, if_pos hop]

theorem assignedOpcode_of_bounds {op : BitVec 8} (hlo : 1 ≤ op.toNat) (hhi : op.toNat ≤ 11) :
    assignedOpcode op = true :=
  decide_eq_true ⟨hlo, hhi⟩

/-- An assigned opcode with its `RSV` field set (rule R116, its first check). -/
theorem decodeOperands_of_rsv {w0 : Word} (ops : List Word) (hlo : 1 ≤ (opField w0).toNat)
    (hhi : (opField w0).toNat ≤ 11) (h : rsvField w0 ≠ 0) : decodeOperands w0 ops = .error .reservedBits := by
  rw [decodeOperands, if_neg (by simp [assignedOpcode_of_bounds hlo hhi]), if_pos h]

/-- Why the operands of an assigned opcode with `RSV = 0` do not decode, row by row of rule R112. -/
theorem decodeOperands_eq_error_iff {w0 : Word} (ops : List Word) (hlo : 1 ≤ (opField w0).toNat)
    (hhi : (opField w0).toNat ≤ 11) (hrsv : rsvField w0 = 0) (why : IllegalSub) :
    decodeOperands w0 ops = .error why ↔
      why = .reservedBits ∧ reservedFieldSet (opField w0).toNat w0 (operandWord ops 0)
        ∨ why = .badImmediate ∧ (opField w0).toNat = 4 ∧ 2 ≤ (highHalf w0).toNat := by
  simp only [decodeOperands, assignedOpcode_of_bounds hlo hhi, hrsv, reservedFieldSet]
  generalize (opField w0).toNat = op at hlo hhi ⊢
  interval_cases op <;>
    simp [decodeReserved_eq_error_iff, decodeBare_eq_error_iff, decodeTxEnable_eq_error_iff]

/-- The first operand word of a command that has one. -/
theorem operandWord_take {ws : List Word} {n : Nat} (h : 1 ≤ n) : operandWord (ws.take n) 0 = ws.getD 0 0 := by
  cases ws with
  | nil => simp [operandWord]
  | cons w ws =>
    obtain ⟨m, rfl⟩ := Nat.exists_eq_add_of_le' h
    simp [operandWord]

/-- The opcodes with a reserved upper half in their first operand word have operand words (rule R112). -/
theorem two_le_commandLength {w0 : Word}
    (h : (opField w0).toNat = 1 ∨ (opField w0).toNat = 7 ∨ (opField w0).toNat = 11) : 2 ≤ commandLength w0 := by
  rcases h with h | h | h <;> simp [commandLength, h]

/-- Of the operand words the checks look at the first alone. -/
theorem reservedFieldSet_take (w0 : Word) (ws : List Word) :
    reservedFieldSet (opField w0).toNat w0 (operandWord (ws.take (commandLength w0 - 1)) 0)
      ↔ reservedFieldSet (opField w0).toNat w0 (ws.getD 0 0) := by
  unfold reservedFieldSet
  by_cases hop : (opField w0).toNat = 1 ∨ (opField w0).toNat = 7 ∨ (opField w0).toNat = 11
  · have hlen := two_le_commandLength hop
    rw [operandWord_take (by omega)]
  · simp only [hop, false_and]

end Sys2Proof

namespace Sys2Proof.Proofs

open Sys2Proof.Machine

/-- Settles O1: an encoded command has the words its header asks for, and its operands decode. -/
theorem commandDecodeInvertsEncode : Obligations.CommandDecodeInvertsEncode := by
  intro i ws rest hwf henc
  obtain ⟨w0, ops, rfl, hlen⟩ := encodeCommand_length hwf henc
  exact decodeCommand_append hlen (decodeOperands_encodeCommand hwf henc) rest

/-- Settles O4: the decoder is ready from `L(w0)` words on, and drops those whichever way the operands decode. -/
theorem decoderConsumesCommandLength : Obligations.DecoderConsumesCommandLength := by
  intro w0 ws
  split
  · rename_i hshort
    apply decodeCommand_of_not_ready
    rw [← Bool.not_eq_true, commandReady_iff]
    omega
  · rename_i hwhole
    have hready := (commandReady_iff w0 ws).2 (by omega)
    cases hops : decodeOperands w0 (ws.take (commandLength w0 - 1)) with
    | ok i => exact .inl ⟨i, decodeCommand_of_ok hready hops⟩
    | error why => exact .inr ⟨why, decodeCommand_of_error hready hops⟩

/-- Settles O5: a whole command is illegal where its operands do not decode: by its opcode, then by its `RSV` field,
then by the other checks of rule R116. -/
theorem reservedEncodingsAreIllegal : Obligations.ReservedEncodingsAreIllegal := by
  intro w0 ws hready
  simp only [decodeCommand_eq_illegal_iff hready]
  by_cases hop : (opField w0).toNat = 0 ∨ 12 ≤ (opField w0).toNat
  · rw [decodeOperands_of_unassigned _ hop]
    simp only [Except.error.injEq, reduceCtorEq, true_iff, false_iff]
    omega
  · have hlo : 1 ≤ (opField w0).toNat := by omega
    have hhi : (opField w0).toNat ≤ 11 := by omega
    by_cases hrsv : rsvField w0 = 0
    · simp only [decodeOperands_eq_error_iff _ hlo hhi hrsv, reservedFieldSet_take]
      simp [reservedFieldSet, hlo, hhi, hrsv, hop]
    · rw [decodeOperands_of_rsv _ hlo hhi hrsv]
      simp only [Except.error.injEq, reduceCtorEq, hlo, hhi, hop, hrsv, ne_eq, not_false_eq_true, true_or, and_self,
        false_and, and_false]

/-- Settles O6: the words are those of rules R111 to R114 and R140, evaluated. -/
theorem wordsOfTheSpecDecode : Obligations.WordsOfTheSpecDecode := by
  refine ⟨?_, ?_, ?_, ?_, ?_, ?_, ?_⟩ <;> decide

end Sys2Proof.Proofs

/-! SUPPORT. The statements on 30_encoding.md, the frames: decoding inverts encoding and encoding inverts decoding
(rules R140 to R146). -/

namespace Sys2Proof

/-! ## Bytes and the fields they hold (rules R12, R85) -/

/-- The u16s of a list are read back from its bytes. -/
@[simp] theorem halves_bytesOfHalves (vs : List Half) : halves (bytesOfHalves vs) = vs := by
  induction vs with
  | nil => rfl
  | cons v vs ih =>
    have hbytes : bytesOfHalves (v :: vs) = v.extractLsb' 0 8 :: v.extractLsb' 8 8 :: bytesOfHalves vs := rfl
    rw [hbytes, halves, ih, Machine.ofBytes16_le16]

theorem le16_ofBytes16 (b0 b1 : Byte) : le16 (ofBytes16 b0 b1) = [b0, b1] := by
  have hlow : (ofBytes16 b0 b1).extractLsb' 0 8 = b0 := (extract_append_low b1 b0 (by omega)).trans (extract_all b0)
  have hhigh : (ofBytes16 b0 b1).extractLsb' 8 8 = b1 := (extract_append_high b1 b0 (by omega)).trans (extract_all b1)
  rw [le16, hlow, hhigh]

/-- An even number of bytes is the bytes of the u16s read from them. -/
theorem bytesOfHalves_halves {bs : List Byte} (h : bs.length % 2 = 0) : bytesOfHalves (halves bs) = bs := by
  induction bs using halves.induct with
  | case1 b0 b1 rest ih =>
    have hrest : rest.length % 2 = 0 := by
      simp only [List.length_cons] at h
      omega
    rw [halves, bytesOfHalves, List.flatMap_cons, le16_ofBytes16, ← bytesOfHalves, ih hrest]
    rfl
  | case2 bs hshort =>
    match bs with
    | [] => rfl
    | [_] => cases h
    | b0 :: b1 :: rest => exact absurd rfl (hshort b0 b1 rest)

theorem drop_eq_getD_cons {bs : List Byte} {k : Nat} (h : k < bs.length) :
    bs.drop k = bs.getD k 0 :: bs.drop (k + 1) := by
  rw [List.drop_eq_getElem_cons h, List.getD_eq_getElem _ _ h]

/-- The bytes from `k` on begin with those of the u16 read there. -/
theorem le16_read16_append {bs : List Byte} {k : Nat} (h : k + 2 ≤ bs.length) :
    le16 (read16 bs k) ++ bs.drop (k + 2) = bs.drop k := by
  rw [drop_eq_getD_cons (k := k) (by omega), drop_eq_getD_cons (k := k + 1) (by omega), read16, le16_ofBytes16]
  rfl

/-- The bytes from `k` on begin with those of the u32 read there. -/
theorem le32_read32_append {bs : List Byte} {k : Nat} (h : k + 4 ≤ bs.length) :
    le32 (read32 bs k) ++ bs.drop (k + 4) = bs.drop k := by
  rw [drop_eq_getD_cons (k := k) (by omega), drop_eq_getD_cons (k := k + 1) (by omega),
    drop_eq_getD_cons (k := k + 2) (by omega), drop_eq_getD_cons (k := k + 3) (by omega), read32, le32_ofBytes32]
  rfl

/-! ## Reads past a field -/

@[simp] theorem read16_le16_append (v : Half) (bs : List Byte) (k : Nat) :
    read16 (le16 v ++ bs) (k + 2) = read16 bs k := rfl

@[simp] theorem read16_le32_append (v : Word) (bs : List Byte) (k : Nat) :
    read16 (le32 v ++ bs) (k + 4) = read16 bs k := rfl

@[simp] theorem read32_le16_append (v : Half) (bs : List Byte) (k : Nat) :
    read32 (le16 v ++ bs) (k + 2) = read32 bs k := rfl

@[simp] theorem read32_le32_append (v : Word) (bs : List Byte) (k : Nat) :
    read32 (le32 v ++ bs) (k + 4) = read32 bs k := rfl

/-! ## Decoding an encoded frame -/

/-- A frame whose payload fits its size field decodes as its payload does. -/
theorem decodeFrame_frameImage (magic : Word) (type : Half) {pl : List Byte} (h : pl.length ≤ 65535) :
    decodeFrame magic (frameImage magic type pl) = decodePayload type.toNat pl := by
  have hmagic : read32 (frameImage magic type pl) 0 = magic := by rw [frameImage, read32_le32]
  have htype : read16 (frameImage magic type pl) 6 = type := by
    simp [frameImage]
  have hpl : (frameImage magic type pl).drop 8 = pl := rfl
  have hsize : (BitVec.ofNat 16 pl.length).toNat = pl.length := by
    rw [BitVec.toNat_ofNat]
    omega
  rw [decodeFrame, read16_frameImage, hmagic, htype, hpl, hsize, if_neg (by simp), if_neg (by simp),
    if_neg (by simp)]

theorem decodePayload_heartbeatPayload (timestamp : Word) :
    decodePayload 0 (heartbeatPayload timestamp) = .ok (.frameHeartbeat timestamp) := by
  have hread : read32 (heartbeatPayload timestamp) 0 = timestamp := read32_le32 timestamp []
  rw [decodePayload, if_pos (by rfl), hread]

@[simp] theorem length_logPayload (category severity : Half) (text : List Byte) :
    (logPayload category severity text).length = 4 + text.length := by
  simp [logPayload]
  omega

@[simp] theorem length_replyPayload (status : Half) (text : List Byte) :
    (replyPayload status text).length = 2 + text.length := by
  simp [replyPayload]

theorem decodePayload_logPayload (category severity : Half) (text : List Byte) :
    decodePayload 1 (logPayload category severity text) = .ok (.frameLog category severity text) := by
  have hlen : 4 ≤ (logPayload category severity text).length := by simp
  have htext : (logPayload category severity text).drop 4 = text := rfl
  rw [decodePayload, if_pos hlen, htext]
  simp [logPayload]

theorem decodePayload_replyPayload (status : Half) (text : List Byte) :
    decodePayload 2 (replyPayload status text) = .ok (.frameReply status text) := by
  have hlen : 2 ≤ (replyPayload status text).length := by simp
  have htext : (replyPayload status text).drop 2 = text := rfl
  rw [decodePayload, if_pos hlen, htext]
  simp [replyPayload]

@[simp] theorem length_pulsePayload (seq timestamp status : Word) (gain duration : Half) (fStart fStop fReturn : F32)
    (samples : List Half) :
    (pulsePayload seq timestamp status gain duration fStart fStop fReturn samples).length
      = 32 + 2 * samples.length := by
  simp [pulsePayload]
  omega

theorem decodePayload_pulsePayload (seq timestamp status : Word) (gain duration : Half) (fStart fStop fReturn : F32)
    {samples : List Half} (h : 32 + 2 * samples.length ≤ 65535) :
    decodePayload 3 (pulsePayload seq timestamp status gain duration fStart fStop fReturn samples)
      = .ok (.framePulse seq timestamp status gain duration fStart fStop fReturn samples) := by
  have hsize : (BitVec.ofNat 16 (2 * samples.length)).toNat = 2 * samples.length := by
    rw [BitVec.toNat_ofNat]
    omega
  have hcount : read16 (pulsePayload seq timestamp status gain duration fStart fStop fReturn samples) 2
      = BitVec.ofNat 16 (2 * samples.length) := by
    simp [pulsePayload]
  have hheader : read16 (pulsePayload seq timestamp status gain duration fStart fStop fReturn samples) 0 = 32 := by
    rw [pulsePayload, read16_le16]
  have hsamples : (pulsePayload seq timestamp status gain duration fStart fStop fReturn samples).drop 32
      = bytesOfHalves samples := rfl
  rw [decodePayload, length_pulsePayload, hcount, hsize, hheader, if_pos ⟨by omega, rfl, by omega, rfl⟩, hsamples,
    halves_bytesOfHalves]
  simp [pulsePayload]

/-- A well-formed frame decodes to itself, one case for each message type (rules R142 to R145). -/
theorem decodeFrame_encodeFrame {magic : Word} {i : Instr} {bs : List Byte} (hwf : wellFormed i = true)
    (h : encodeFrame magic i = some bs) : decodeFrame magic bs = .ok i := by
  cases i with
  | frameHeartbeat timestamp =>
    cases h
    rw [decodeFrame_frameImage magic 0 (by simp [heartbeatPayload])]
    exact decodePayload_heartbeatPayload timestamp
  | frameLog category severity text =>
    cases h
    have hfits : 4 + text.length ≤ 65535 := of_decide_eq_true hwf
    rw [decodeFrame_frameImage magic 1 (by rwa [length_logPayload])]
    exact decodePayload_logPayload category severity text
  | frameReply status text =>
    cases h
    have hfits : 2 + text.length ≤ 65535 := of_decide_eq_true hwf
    rw [decodeFrame_frameImage magic 2 (by rwa [length_replyPayload])]
    exact decodePayload_replyPayload status text
  | framePulse =>
    cases h
    have hfits := of_decide_eq_true hwf
    rw [decodeFrame_frameImage magic 3 (by rwa [length_pulsePayload])]
    exact decodePayload_pulsePayload _ _ _ _ _ _ _ _ hfits
  | _ => cases h

/-! ## Encoding a decoded frame -/

/-- What decodes is the frame of a payload that decodes (rule R140). -/
theorem decodeFrame_eq_ok {magic : Word} {bs : List Byte} {i : Instr} (h : decodeFrame magic bs = .ok i) :
    ∃ (type : Half) (pl : List Byte), pl.length ≤ 65535 ∧ bs = frameImage magic type pl
      ∧ decodePayload type.toNat pl = .ok i := by
  unfold decodeFrame at h
  split at h
  · cases h
  · split at h
    · cases h
    · split at h
      · cases h
      · rename_i hlong hmagic hsize
        have hlen : bs.length = 8 + (read16 bs 4).toNat := not_not.1 hsize
        have hfits := (read16 bs 4).isLt
        have hpl : BitVec.ofNat 16 (bs.drop 8).length = read16 bs 4 := by
          rw [List.length_drop, hlen, Nat.add_sub_cancel_left, BitVec.ofNat_toNat, BitVec.setWidth_eq]
        refine ⟨read16 bs 6, bs.drop 8, by rw [List.length_drop]; omega, ?_, h⟩
        rw [frameImage, hpl, le16_read16_append (k := 6) (by omega), le16_read16_append (k := 4) (by omega),
          ← not_not.1 hmagic, le32_read32_append (k := 0) (by omega), List.drop_zero]

/-- The bytes of a payload that begins with the 32-byte header of a Pulse (rule R142). -/
theorem pulsePayload_of_reads {pl : List Byte} (hlen : pl.length = 32 + (read16 pl 2).toNat)
    (hheader : read16 pl 0 = 32) (heven : (read16 pl 2).toNat % 2 = 0) :
    pulsePayload (read32 pl 4) (read32 pl 8) (read32 pl 12) (read16 pl 16) (read16 pl 18) (read32 pl 20) (read32 pl 24)
      (read32 pl 28) (halves (pl.drop 32)) = pl := by
  have hsamples : bytesOfHalves (halves (pl.drop 32)) = pl.drop 32 :=
    bytesOfHalves_halves (by rw [List.length_drop]; omega)
  have hcount : BitVec.ofNat 16 (2 * (halves (pl.drop 32)).length) = read16 pl 2 := by
    rw [← Machine.length_bytesOfHalves, hsamples, List.length_drop, hlen, Nat.add_sub_cancel_left, BitVec.ofNat_toNat,
      BitVec.setWidth_eq]
  rw [pulsePayload, hsamples, hcount, le32_read32_append (by omega), le32_read32_append (by omega),
    le32_read32_append (by omega), le16_read16_append (by omega), le16_read16_append (by omega),
    le32_read32_append (by omega), le32_read32_append (by omega), le32_read32_append (by omega),
    le16_read16_append (by omega), ← hheader, le16_read16_append (by omega), List.drop_zero]

/-- A payload that decodes is the payload of a well-formed frame of its type (rules R142 to R145). -/
theorem encodeFrame_of_decodePayload {type : Half} {pl : List Byte} {i : Instr} (magic : Word)
    (hfits : pl.length ≤ 65535) (h : decodePayload type.toNat pl = .ok i) :
    wellFormed i = true ∧ encodeFrame magic i = some (frameImage magic type pl) := by
  have htype {n : Nat} (hn : type.toNat = n) : type = BitVec.ofNat 16 n := by
    rw [← hn, BitVec.ofNat_toNat, BitVec.setWidth_eq]
  unfold decodePayload at h
  split at h
  · rename_i hn
    split at h
    · rename_i hlen
      cases h
      have hpl : heartbeatPayload (read32 pl 0) = pl := by
        have hbytes := le32_read32_append (bs := pl) (k := 0) (by omega)
        rwa [List.drop_of_length_le (by omega), List.append_nil] at hbytes
      exact ⟨rfl, by rw [encodeFrame, hpl, htype hn]; rfl⟩
    · cases h
  · rename_i hn
    split at h
    · rename_i hlen
      cases h
      have hpl : logPayload (read16 pl 0) (read16 pl 2) (pl.drop 4) = pl := by
        rw [logPayload, le16_read16_append (by omega), le16_read16_append (by omega), List.drop_zero]
      refine ⟨decide_eq_true ?_, by rw [encodeFrame, hpl, htype hn]; rfl⟩
      rw [List.length_drop]
      omega
    · cases h
  · rename_i hn
    split at h
    · rename_i hlen
      cases h
      have hpl : replyPayload (read16 pl 0) (pl.drop 2) = pl := by
        rw [replyPayload, le16_read16_append (by omega), List.drop_zero]
      refine ⟨decide_eq_true ?_, by rw [encodeFrame, hpl, htype hn]; rfl⟩
      rw [List.length_drop]
      omega
    · cases h
  · rename_i hn
    split at h
    · rename_i hform
      obtain ⟨_, hheader, heven, hlen⟩ := hform
      cases h
      have hpl := pulsePayload_of_reads hlen hheader heven
      refine ⟨decide_eq_true ?_, by rw [encodeFrame, hpl, htype hn]; rfl⟩
      rwa [← length_pulsePayload, hpl]
    · cases h
  · cases h

end Sys2Proof

namespace Sys2Proof.Proofs

open Sys2Proof.Machine

/-- Settles O2: the frame's fields are read back, and then those of its payload. -/
theorem frameDecodeInvertsEncode : Obligations.FrameDecodeInvertsEncode := by
  intro magic i bs hwf henc
  exact decodeFrame_encodeFrame hwf henc

/-- Settles O3: a byte string that decodes is the frame of a payload that decodes, and that payload is its encoding. -/
theorem frameEncodeInvertsDecode : Obligations.FrameEncodeInvertsDecode := by
  intro magic i bs hdec
  obtain ⟨type, pl, hfits, rfl, hpl⟩ := decodeFrame_eq_ok hdec
  exact encodeFrame_of_decodePayload magic hfits hpl

end Sys2Proof.Proofs

/-! SUPPORT. The statements on 30_encoding.md and 44_message_framer.md at the step: what is fetched, the one response of
every command (rules R116 to R121), and the frames that the send unit delivers (rules R270 to R287). -/

namespace Sys2Proof.Machine

/-! ## Every instruction comes to an end -/

/-- An instruction that neither faults nor refuses comes to a next state. -/
theorem exec_answers {s : State} (hs : s.Inv) (i : Instr) : ∃ t, exec i s = .next t := by
  cases ho : exec i s with
  | next t => exact ⟨t, rfl⟩
  | fault f => exact absurd ho (exec_noFault hs i f)
  | refused r => exact absurd ho (exec_ne_refused i s r)

/-! ## Responses (rules R118 to R121) -/

theorem responseWords_scratch : responseWords (.outOfSpace .scratch) [] = [0x00000104#32] := by decide

theorem responseWords_sizeField : responseWords (.outOfSpace .sizeField) [] = [0x00000204#32] := by decide

theorem highHalf_responseHeader (code sub : BitVec 8) (n : Nat) :
    highHalf (responseHeader code sub n) = BitVec.ofNat 16 n :=
  (extract_append_high (BitVec.ofNat 16 n) (sub ++ code) (by omega)).trans (extract_all _)

theorem opField_responseHeader (code sub : BitVec 8) (n : Nat) : opField (responseHeader code sub n) = code :=
  (extract_append_low (BitVec.ofNat 16 n) (sub ++ code) (by omega)).trans
    ((extract_append_low sub code (by omega)).trans (extract_all code))

/-- From `s` to `t` exactly one response was given, and on an error it has no result word (rules R118, R301). -/
def RespondedOnce (s t : State) : Prop :=
  ∃ st ws, t.resp = s.resp ++ [responseWords st ws] ∧ ws.length ≤ 7 ∧ (st ≠ .ok → ws = [])

/-- The header word counts the result words, and only `OK` has code 0 (rules R118, R119). -/
theorem RespondedOnce.header {s t : State} (h : RespondedOnce s t) :
    ∃ (r0 : Word) (ws : List Word), t.resp = s.resp ++ [r0 :: ws] ∧ (highHalf r0).toNat = ws.length
      ∧ (opField r0 ≠ 0 → ws = []) := by
  obtain ⟨st, ws, hresp, hlen, herr⟩ := h
  refine ⟨responseHeader st.code st.sub ws.length, ws, hresp, ?_, fun hcode => herr fun hok => hcode ?_⟩
  · rw [highHalf_responseHeader, BitVec.toNat_ofNat]
    omega
  · rw [opField_responseHeader, hok]
    rfl

/-- A response with no result word is one response, whatever its status. -/
theorem respondedOnce_of_resp {s t : State} {st : Status} (h : t.resp = s.resp ++ [responseWords st []]) :
    RespondedOnce s t :=
  ⟨st, [], h, by simp, fun _ => rfl⟩

theorem sendAndRespond_respondedOnce (s : State) (type : Half) (pl : List Byte) :
    RespondedOnce s (sendAndRespond s type pl) :=
  respondedOnce_of_resp (st := (send s type pl).1) (by simp [sendAndRespond])

theorem execConfigure_respondedOnce {d g : Half} {fs fe fr : F32} {s t : State}
    (h : execConfigure d g fs fe fr s = .next t) : RespondedOnce s t := by
  rcases execConfigure_cases h with ⟨st, _, rfl⟩ | rfl | ⟨p, m, e, _, _, rfl⟩ | ⟨p, m, _, _, _, rfl⟩
  · exact respondedOnce_of_resp (st := st) (by simp)
  · exact respondedOnce_of_resp (st := .allocationError) (by simp)
  · exact respondedOnce_of_resp (st := .rangeError e) (by simp)
  · exact respondedOnce_of_resp (st := .ok) (by simp)

theorem execGenerate_respondedOnce {n off : Half} {fs fe : F32} {s t : State}
    (h : execGenerate n off fs fe s = .next t) : RespondedOnce s t := by
  unfold execGenerate at h
  split at h
  · cases h
    exact respondedOnce_of_resp rfl
  · split at h
    · cases h
      exact respondedOnce_of_resp rfl
    · split at h
      · cases h
      · rename_i e u hgen
        have hframe : u = { s with buf := u.buf } := (generate_frame hgen).1
        cases h
        exact respondedOnce_of_resp (st := .rangeError e) (by rw [hframe]; rfl)
      · rename_i u hgen
        have hframe : u = { s with buf := u.buf } := (generate_frame hgen).1
        cases h
        exact respondedOnce_of_resp (st := .ok) (by rw [hframe]; rfl)

theorem execEmitPulse_respondedOnce {s t : State} (h : execEmitPulse s = .next t) : RespondedOnce s t := by
  unfold execEmitPulse at h
  split at h
  · cases h
    exact respondedOnce_of_resp rfl
  · split at h
    · cases h
      exact respondedOnce_of_resp rfl
    · split at h
      · cases h
      · cases h
        exact (sendAndRespond_respondedOnce s.consumePulse 3 _ :)

/-- Every command gives one response: its meaning ends with it on every path. -/
theorem exec_respondedOnce {i : Instr} {s t : State} (hi : (encodeCommand i).isSome = true) (h : exec i s = .next t) :
    RespondedOnce s t := by
  cases i with
  | configure => exact execConfigure_respondedOnce h
  | start =>
    rcases execStart_cases h with ⟨_, rfl⟩ | ⟨_, rfl⟩
    · exact respondedOnce_of_resp rfl
    · exact respondedOnce_of_resp rfl
  | stop | setTxEnable =>
    cases h
    exact respondedOnce_of_resp rfl
  | readStatus =>
    cases h
    exact ⟨.ok, [s.statusWord], rfl, by simp, fun hne => absurd rfl hne⟩
  | resolve d =>
    simp only [exec, execResolve] at h
    split at h
    · cases h
      exact respondedOnce_of_resp rfl
    · rename_i p _
      cases h
      exact ⟨.ok, profileWords p, rfl, by simp [profileWords], fun hne => absurd rfl hne⟩
  | generate => exact execGenerate_respondedOnce h
  | emitPulse => exact execEmitPulse_respondedOnce h
  | sendHeartbeat =>
    cases h
    exact (sendAndRespond_respondedOnce s.drawn 0 _ :)
  | sendLog | sendReply =>
    cases h
    exact sendAndRespond_respondedOnce s _ _
  | frameHeartbeat | frameLog | frameReply | framePulse => cases hi

/-- RESOLVE's response: seven result words, each of which 32 bits hold (rule R121). -/
theorem responseWords_profileWords {p : TimingProfile} (hout : p.outLen < 4294967296) (htsf : p.tsf < 4294967296)
    (hspc : p.spc < 4294967296) (hdelay : p.chDelay < 4294967296) (hhold : p.holdCount < 4294967296)
    (hinterval : p.outInterval < 4294967296) (hin : p.inLen < 4294967296) :
    responseWords .ok (profileWords p) = [0x00070000#32, BitVec.ofNat 32 p.outLen, BitVec.ofNat 32 p.tsf,
      BitVec.ofNat 32 p.spc, BitVec.ofNat 32 p.chDelay, BitVec.ofNat 32 p.holdCount, BitVec.ofNat 32 p.outInterval,
      BitVec.ofNat 32 p.inLen] := by
  have hheader : responseHeader Status.ok.code Status.ok.sub 7 = 0x00070000#32 := by decide
  rw [responseWords, profileWords, heldLength_of_lt hout, heldLength_of_lt htsf, heldIn32_of_lt hspc,
    heldIn32_of_lt hdelay, heldIn32_of_lt hhold, heldIn32_of_lt hinterval, heldLength_of_lt hin]
  exact congrArg (· :: _) hheader

/-! ## What is fetched at the framer's turn -/

theorem takeTurn_framer_instr {s : State} {i : Instr} (hreq : s.frameReq ≠ [])
    (h : decodeFrame s.cfg.frameMagic s.frameReq = .ok i) :
    takeTurn .framer s = exec i { s with frameReq := [] } := by
  simp [takeTurn, fetchFrame, hreq, h, runFetched]

/-! ## The send unit (rules R270 to R273) -/

/-- The state after a delivered frame. -/
def State.delivered (s : State) (F : List Byte) : State :=
  { s with scr := Memory.write s.scr 0 F, history := s.history ++ [Event.frame F] }

theorem send_of_fits {s : State} {pl : List Byte} (type : Half) (hroom : 8 + pl.length ≤ s.cfg.scratchCapacity)
    (hsize : pl.length ≤ 65535) :
    send s type pl = (.ok, s.delivered (frameImage s.cfg.frameMagic type pl)) := by
  rw [send, if_neg (by omega), if_neg (by omega)]
  rfl

theorem send_of_no_room {s : State} {pl : List Byte} (type : Half) (hroom : s.cfg.scratchCapacity < 8 + pl.length) :
    send s type pl = (.outOfSpace .scratch, s) := by
  rw [send, if_pos hroom]

theorem send_of_wide {s : State} {pl : List Byte} (type : Half) (hroom : 8 + pl.length ≤ s.cfg.scratchCapacity)
    (hsize : 65535 < pl.length) : send s type pl = (.outOfSpace .sizeField, s) := by
  rw [send, if_neg (by omega), if_pos hsize]

/-- The bytes of a Heartbeat frame: magic, size 4, type 0, time stamp (rules R140, R143). -/
theorem frameImage_heartbeat (magic timestamp : Word) :
    frameImage magic 0 (heartbeatPayload timestamp) = le32 magic ++ ([0x04#8, 0, 0, 0] ++ le32 timestamp) := by
  have hheader : le16 4 ++ le16 0 = [0x04#8, 0, 0, 0] := by decide
  rw [← hheader, List.append_assoc]
  rfl

/-- After a block write at the start of `SCR` the block stands there, and every byte past it reads as before
(rule R270). -/
theorem scratchHolds_write {s t : State} {F : List Byte} (hscr : t.scr = Memory.write s.scr 0 F)
    (hresets : t.resets = s.resets) : ScratchHolds s t F := by
  have hbyte (a : Nat) :
      t.byteAt .scr a = (Memory.write s.scr 0 F).byteAt (Config.unwrittenByte .scr s.resets) a := by
    rw [State.byteAt, State.mem_scr, hscr, hresets]
  constructor
  · intro k hk
    have hread := Memory.byteAt_write s.scr (Config.unwrittenByte .scr s.resets) 0 hk
    rw [Nat.zero_add] at hread
    rw [hbyte, hread, List.getD_eq_getElem _ _ hk]
  · intro a ha
    rw [hbyte, Memory.byteAt_write_of_not _ _ (.inr (by omega))]
    rfl

/-- A sending command whose frame fits: the frame in `SCR` and on `SINK`, and the `OK` response. -/
theorem sendAndRespond_of_fits {s : State} {pl : List Byte} (type : Half)
    (hroom : 8 + pl.length ≤ s.cfg.scratchCapacity) (hsize : pl.length ≤ 65535) :
    sendAndRespond s type pl = { s with
      scr := Memory.write s.scr 0 (frameImage s.cfg.frameMagic type pl)
      history := s.history ++ [Event.frame (frameImage s.cfg.frameMagic type pl)]
      resp := s.resp ++ [[0x00000000#32]] } := by
  rw [sendAndRespond, send_of_fits type hroom hsize, State.respond, responseWords_ok_nil]
  rfl

/-- A sending command without room in `SCR` only responds. -/
theorem sendAndRespond_of_no_room {s : State} {pl : List Byte} (type : Half)
    (hroom : s.cfg.scratchCapacity < 8 + pl.length) :
    sendAndRespond s type pl = { s with resp := s.resp ++ [[0x00000104#32]] } := by
  rw [sendAndRespond, send_of_no_room type hroom, State.respond, responseWords_scratch]

/-- A sending command whose payload the size field does not hold only responds. -/
theorem sendAndRespond_of_wide {s : State} {pl : List Byte} (type : Half)
    (hroom : 8 + pl.length ≤ s.cfg.scratchCapacity) (hsize : 65535 < pl.length) :
    sendAndRespond s type pl = { s with resp := s.resp ++ [[0x00000204#32]] } := by
  rw [sendAndRespond, send_of_wide type hroom hsize, State.respond, responseWords_sizeField]

/-! ## The frames (rules R140 to R145, R273) -/

/-- A frame instruction is sent with its type and payload, and is well-formed iff the size field holds its payload. -/
theorem exec_of_encodeFrame {s : State} {i : Instr} {F : List Byte} (h : encodeFrame s.cfg.frameMagic i = some F) :
    ∃ type pl, F = frameImage s.cfg.frameMagic type pl ∧ exec i s = .next (send s type pl).2
      ∧ (wellFormed i = true ↔ pl.length ≤ 65535) := by
  cases i with
  | frameHeartbeat timestamp =>
    cases h
    exact ⟨0, _, rfl, rfl, by simp [wellFormed, heartbeatPayload]⟩
  | frameLog category severity text =>
    cases h
    exact ⟨1, _, rfl, rfl, by rw [length_logPayload]; exact decide_eq_true_iff⟩
  | frameReply status text =>
    cases h
    exact ⟨2, _, rfl, rfl, by rw [length_replyPayload]; exact decide_eq_true_iff⟩
  | framePulse =>
    cases h
    exact ⟨3, _, rfl, rfl, by rw [length_pulsePayload]; exact decide_eq_true_iff⟩
  | _ => cases h

/-- A frame that does not fit is lost (rule R273). -/
theorem send_state_of_not_fits {s : State} {type : Half} {pl : List Byte}
    (h : s.cfg.scratchCapacity < 8 + pl.length ∨ 65535 < pl.length) : (send s type pl).2 = s := by
  rcases send_spec s type pl with ⟨_, hsend⟩ | ⟨_, _, hsend⟩ | ⟨hroom, hsize, _⟩
  · rw [hsend]
  · rw [hsend]
  · omega

/-! ## The pulse (rules R285 to R287) -/

/-- The samples of the drained half: drawn while the sampler runs, else the elements of the frozen `IN_BUF`. -/
theorem pulseSamples_eq_ok {s : State} (hlen : s.inBuf.len = s.prof.inLen) (hbase : s.inBuf.base.toNat % 2 = 0)
    (hfits : s.inBuf.base.toNat + 2 * s.inBuf.len.toNat ≤ s.cfg.bufCapacity) :
    pulseSamples s = .ok (if s.smpEn then (List.range (samplesPerPulse s)).map (Config.racedSample s.draws)
      else (List.range (samplesPerPulse s)).map fun j =>
        elementAt s s.inBuf (drainedHalf s * samplesPerPulse s + j)) := by
  unfold pulseSamples
  split
  · rfl
  · have htwice : 2 * samplesPerPulse s ≤ s.inBuf.len.toNat := by
      rw [samplesPerPulse, hlen]
      omega
    have hdrained : drainedHalf s * samplesPerPulse s + samplesPerPulse s ≤ s.inBuf.len.toNat := by
      unfold drainedHalf
      split <;> omega
    exact readElements_eq_ok hdrained hbase (by unfold elementAddr; omega)

/-- The status bitfield of a Pulse is the parity alone. -/
theorem parityWord_eq (p : Bool) : parityWord p = if p then 1 else 0 := by
  cases p <;> rfl

/-- The Pulse frame of a state's record decodes to that record, its request and the samples. -/
theorem decodeFrame_statePulse (s : State) (magic : Word) {d : List Half} (h : 32 + 2 * d.length ≤ 65535) :
    decodeFrame magic (frameImage magic 3 (statePulsePayload s d))
      = .ok (.framePulse s.seq s.ts (if s.parity then 1 else 0) s.req.gain s.req.duration s.req.fStart s.req.fStop
          s.req.fReturn d) := by
  rw [← parityWord_eq]
  exact decodeFrame_encodeFrame (decide_eq_true h) rfl

end Sys2Proof.Machine

namespace Sys2Proof.Proofs

open Sys2Proof.Machine

/-- Settles O23: from a state of the invariant no instruction faults, and none ever refuses. -/
theorem everyInstructionAnswers : Obligations.EveryInstructionAnswers :=
  fun _ i hs => exec_answers hs i

/-- Settles O11: on every path a command's meaning ends with one response. -/
theorem everyCommandRespondsOnce : Obligations.EveryCommandRespondsOnce :=
  fun _ _ _ hi h => (exec_respondedOnce hi h).header

/-- Settles O9: the scheduled turn is the framer's, and it executes what it decodes. -/
theorem stepRunsThePlacedFrame : Obligations.StepRunsThePlacedFrame := by
  intro s ts i hc ht hreq hdec
  rw [step_of_turns hc ht]
  exact takeTurn_framer_instr (s := { s with turns := ts }) hreq hdec

/-- Settles O10: the scheduled turn is the sequencer's, and an illegal command is only raised, with one word for each
sub-cause. -/
theorem illegalCommandOnlyResponds : Obligations.IllegalCommandOnlyResponds := by
  intro s ts why rest hc ht hdec
  rw [step_of_turns hc ht, takeTurn_command_illegal (s := { s with turns := ts }) hdec, State.raise, State.respond]
  cases why <;> rfl

/-- Settles O36: the resolver's profile in the order of rule R121, each count held in its word. -/
theorem resolveReportsTheProfile : Obligations.ResolveReportsTheProfile := by
  intro s d p hp hout htsf hspc hdelay hhold hinterval hin
  simp only [exec, execResolve, hp]
  rw [State.respond, responseWords_profileWords hout htsf hspc hdelay hhold hinterval hin]

/-- Settles O51: the heartbeat's frame has 12 bytes, and its time stamp is drawn first. -/
theorem heartbeatIsSent : Obligations.HeartbeatIsSent := by
  intro s
  have hlen : 8 + (heartbeatPayload (Config.cycleRead s.draws)).length = 12 := rfl
  constructor
  · intro hroom
    refine ⟨_, rfl, ?_⟩
    rw [sendAndRespond_of_fits (s := s.drawn) 0 (by rw [hlen]; exact hroom) (by omega),
      frameImage_heartbeat]
    exact ⟨scratchHolds_write rfl rfl, rfl⟩
  · intro hroom
    rw [exec, execSendHeartbeat, sendAndRespond_of_no_room (s := s.drawn) 0 (by rw [hlen]; exact hroom)]
    rfl

/-- Settles O52: the three ends of the send unit on the log's payload. -/
theorem logIsSent : Obligations.LogIsSent := by
  intro s category severity text
  have hlen := length_logPayload category severity text
  refine ⟨fun hroom hsize => ?_, fun hroom => ?_, fun hroom hsize => ?_⟩
  · refine ⟨_, rfl, ?_⟩
    rw [sendAndRespond_of_fits 1 (by omega) (by omega), frameImage, hlen]
    exact ⟨scratchHolds_write rfl rfl, rfl⟩
  · rw [exec, execSendLog, sendAndRespond_of_no_room 1 (by omega)]
  · rw [exec, execSendLog, sendAndRespond_of_wide 1 (by omega) (by omega)]

/-- Settles O53: the three ends of the send unit on the reply's payload. -/
theorem replyIsSent : Obligations.ReplyIsSent := by
  intro s status text
  have hlen := length_replyPayload status text
  refine ⟨fun hroom hsize => ?_, fun hroom => ?_, fun hroom hsize => ?_⟩
  · refine ⟨_, rfl, ?_⟩
    rw [sendAndRespond_of_fits 2 (by omega) (by omega), frameImage, hlen]
    exact ⟨scratchHolds_write rfl rfl, rfl⟩
  · rw [exec, execSendReply, sendAndRespond_of_no_room 2 (by omega)]
  · rw [exec, execSendReply, sendAndRespond_of_wide 2 (by omega) (by omega)]

/-- Settles O54: a frame instruction is its payload handed to the send unit. -/
theorem framesAreDelivered : Obligations.FramesAreDelivered := by
  intro s i F henc
  obtain ⟨type, pl, rfl, hexec, hwf⟩ := exec_of_encodeFrame henc
  rw [length_frameImage]
  constructor
  · intro hroom hfits
    refine ⟨_, hexec, ?_⟩
    rw [send_of_fits type hroom (hwf.1 hfits)]
    exact ⟨scratchHolds_write rfl rfl, rfl⟩
  · intro hlost
    rw [hexec, send_state_of_not_fits (hlost.imp_right fun hbad => ?_)]
    rw [← Bool.not_eq_true, hwf] at hbad
    omega

/-- Settles O55: the samples are there, and the pulse's frame fits the send unit and decodes to what it was built
from. -/
theorem pulseIsEmitted : Obligations.PulseIsEmitted := by
  intro s hmode hpending hlen hbase hfits K h d hroom hsize
  have hsamples : pulseSamples s = .ok d := pulseSamples_eq_ok hlen hbase hfits
  have hcount : d.length = K := by
    simp only [d]
    split <;> simp
  have hpl : (statePulsePayload s d).length = 32 + 2 * K := by rw [statePulsePayload, length_pulsePayload, hcount]
  refine ⟨sendAndRespond s.consumePulse 3 (statePulsePayload s d),
    frameImage s.cfg.frameMagic 3 (statePulsePayload s d), ?_, ?_, ?_⟩
  · rw [exec, execEmitPulse, if_neg hmode, if_neg hpending, hsamples]
  · exact decodeFrame_statePulse s _ (by omega)
  · rw [sendAndRespond_of_fits (s := s.consumePulse) 3 (by rw [hpl]; change _ ≤ s.cfg.scratchCapacity; omega)
      (by omega)]
    exact ⟨scratchHolds_write rfl rfl, rfl⟩

end Sys2Proof.Proofs

/-! SUPPORT. The statement on the assembler's rounding: the binary32 patterns as multiples of 2^-149, and the nearest of them
to a rational (rules R11, R150). -/

namespace Sys2Proof.Machine

/-! ## The value of a pattern in units of 2^-149 -/

/-- The signed magnitude of a pattern. -/
def units32 (f : F32) : Int :=
  if sign32 f then -(magnitude32 f : Int) else (magnitude32 f : Int)

theorem val32_eq (f : F32) : val32 f = (units32 f : Rat) / 2 ^ 149 := by
  rw [val32, ← units32, Rat.mkRat_eq_div]
  norm_num

/-- The distance of a value from `n / d`, as a distance of integers. -/
theorem abs_val32_sub (f : F32) (n : Nat) {d : Nat} (hd : 0 < d) :
    |val32 f - (n : Rat) / (d : Rat)| = ((|units32 f * d - (n * 2 ^ 149 : Nat)| : Int) : Rat) / (2 ^ 149 * d) := by
  have hd0 : (d : Rat) ≠ 0 := by positivity
  have hscale : (0 : Rat) < 2 ^ 149 * d := by positivity
  have hsub : val32 f - (n : Rat) / (d : Rat)
      = ((units32 f * d - (n * 2 ^ 149 : Nat) : Int) : Rat) / (2 ^ 149 * d) := by
    rw [val32_eq, div_sub_div _ _ (by positivity) hd0]
    push_cast
    ring
  rw [hsub, abs_div, abs_of_pos hscale, Int.cast_abs]

/-- A magnitude has at most 24 significant bits (rule R11). -/
theorem magnitude32_lt (f : F32) : magnitude32 f < 2 ^ 24 * 2 ^ (exponent32 f - 1) := by
  have hfrac : fraction32 f < 2 ^ 23 := (f.extractLsb' 0 23).isLt
  unfold magnitude32
  split
  · rename_i hexp
    rw [hexp]
    omega
  · exact Nat.mul_lt_mul_of_pos_right (by omega) (by positivity)

/-- A value is a multiple of `2^k`, or it lies below the binade of `k`. -/
theorem units32_dvd_or_lt (f : F32) (k : Nat) :
    (2 ^ k : Int) ∣ units32 f ∨ 0 < k ∧ units32 f < 2 ^ 23 * 2 ^ k := by
  by_cases hk : k ≤ exponent32 f - 1
  · left
    have hmag : 2 ^ k ∣ magnitude32 f := by
      unfold magnitude32
      split
      · rename_i hexp
        rw [hexp] at hk
        rw [Nat.le_zero.1 hk, pow_zero]
        exact one_dvd _
      · exact Dvd.dvd.mul_left (pow_dvd_pow 2 hk) _
    have hint : (2 ^ k : Int) ∣ (magnitude32 f : Int) := by exact_mod_cast hmag
    unfold units32
    split
    · exact hint.neg_right
    · exact hint
  · right
    have hle : units32 f ≤ magnitude32 f := by
      unfold units32
      split <;> omega
    have hlt : magnitude32 f < 2 ^ 23 * 2 ^ k :=
      calc magnitude32 f < 2 ^ 24 * 2 ^ (exponent32 f - 1) := magnitude32_lt f
        _ ≤ 2 ^ 24 * 2 ^ (k - 1) := Nat.mul_le_mul_left _ (Nat.pow_le_pow_right (by omega) (by omega))
        _ = 2 ^ 23 * 2 ^ k := by rw [← pow_add, ← pow_add]; congr 1; omega
    have hint : (magnitude32 f : Int) < 2 ^ 23 * 2 ^ k := by exact_mod_cast hlt
    exact ⟨by omega, by omega⟩

/-! ## The fields of a pattern given as a number -/

/-- The fields of a pattern without a sign. -/
theorem fields_ofNat {p : Nat} (hp : p < 2 ^ 31) :
    exponent32 (BitVec.ofNat 32 p) = p / 2 ^ 23 ∧ fraction32 (BitVec.ofNat 32 p) = p % 2 ^ 23
      ∧ sign32 (BitVec.ofNat 32 p) = false := by
  have hnat : (BitVec.ofNat 32 p).toNat = p := by
    rw [BitVec.toNat_ofNat]
    omega
  refine ⟨?_, ?_, ?_⟩
  · rw [exponent32, BitVec.extractLsb'_toNat, hnat, Nat.shiftRight_eq_div_pow]
    omega
  · rw [fraction32, BitVec.extractLsb'_toNat, hnat, Nat.shiftRight_zero]
  · rw [sign32, ← BitVec.testBit_toNat, hnat]
    exact Nat.testBit_lt_two_pow hp

/-- The pattern of a significand `m` in the binade `k`: its value is `m · 2^k`, and its fraction has the parity of `m`. A
significand of `2^24` is the first of the next binade. -/
theorem pattern_of_significand {m k : Nat} (hm : m ≤ 2 ^ 24) (hk : k = 0 ∨ 2 ^ 23 ≤ m)
    (hfin : m + k * 2 ^ 23 < 255 * 2 ^ 23) :
    units32 (BitVec.ofNat 32 (m + k * 2 ^ 23)) = m * 2 ^ k
      ∧ fraction32 (BitVec.ofNat 32 (m + k * 2 ^ 23)) % 2 = m % 2 := by
  obtain ⟨hexp, hfrac, hsign⟩ := fields_ofNat (p := m + k * 2 ^ 23) (by omega)
  have hunits : units32 (BitVec.ofNat 32 (m + k * 2 ^ 23)) = magnitude32 (BitVec.ofNat 32 (m + k * 2 ^ 23)) := by
    rw [units32, hsign]
    rfl
  rw [hunits, magnitude32, hexp, hfrac]
  refine ⟨?_, by omega⟩
  by_cases hsub : m < 2 ^ 23
  · have hk0 : k = 0 := by omega
    subst hk0
    rw [if_pos (by omega)]
    simp only [Nat.zero_mul, Nat.add_zero, pow_zero, mul_one]
    congr 1
    omega
  · rw [if_neg (by omega)]
    by_cases htop : m = 2 ^ 24
    · have hquot : (m + k * 2 ^ 23) / 2 ^ 23 - 1 = k + 1 := by omega
      have hrem : (m + k * 2 ^ 23) % 2 ^ 23 = 0 := by omega
      rw [hquot, hrem, htop]
      push_cast
      ring
    · have hquot : (m + k * 2 ^ 23) / 2 ^ 23 - 1 = k := by omega
      have hrem : 8388608 + (m + k * 2 ^ 23) % 2 ^ 23 = m := by omega
      rw [hquot, hrem]
      push_cast
      rfl

/-! ## The binade and the significand of a rational -/

/-- The significand that `binary32OfRatio` rounds to, in units of its binade. -/
def significand32 (n d : Nat) : Nat :=
  divNearestEven (n * 2 ^ 149) (d * 2 ^ binade32 n d)

theorem binary32OfRatio_eq (n d : Nat) :
    binary32OfRatio n d
      = BitVec.ofNat 32 (min (significand32 n d + binade32 n d * 2 ^ 23) (255 * 2 ^ 23)) := rfl

/-- A rational has at most 24 bits before the point in units of its binade, and exactly 24 above the lowest binade. -/
theorem binade32_bounds (n : Nat) {d : Nat} (hd : 0 < d) :
    n * 2 ^ 149 < 2 ^ 24 * (d * 2 ^ binade32 n d)
      ∧ (binade32 n d = 0 ∨ 2 ^ 23 * (d * 2 ^ binade32 n d) ≤ n * 2 ^ 149) := by
  unfold binade32
  generalize n * 2 ^ 149 = x
  constructor
  · have hlog : x / d < 2 ^ (24 + ((x / d).log2 - 23)) :=
      lt_of_lt_of_le Nat.lt_log2_self (Nat.pow_le_pow_right (by omega) (by omega))
    have hx := (Nat.div_lt_iff_lt_mul hd).1 hlog
    rw [pow_add] at hx
    linarith
  · by_cases hlow : (x / d).log2 ≤ 23
    · exact .inl (by omega)
    · right
      have hpos : x / d ≠ 0 := by
        intro h0
        rw [h0] at hlow
        exact hlow (by decide)
      have hpow : 2 ^ 23 * 2 ^ ((x / d).log2 - 23) = 2 ^ (x / d).log2 := by
        rw [← pow_add]
        congr 1
        omega
      have hx := (Nat.le_div_iff_mul_le hd).1 (Nat.log2_self_le hpos)
      rw [← hpow] at hx
      linarith

/-- The rounded significand has at most 24 bits, or is `2^24`; above the lowest binade it has 24. -/
theorem significand32_bounds (n : Nat) {d : Nat} (hd : 0 < d) :
    significand32 n d ≤ 2 ^ 24 ∧ (binade32 n d = 0 ∨ 2 ^ 23 ≤ significand32 n d) := by
  obtain ⟨hhi, hlo⟩ := binade32_bounds n hd
  have hunit : 0 < d * 2 ^ binade32 n d := by positivity
  obtain ⟨hup, hdown, _⟩ := divNearestEven_near (n * 2 ^ 149) _ hunit
  rw [← significand32] at hup hdown
  generalize d * 2 ^ binade32 n d = unit at hhi hlo hunit hup hdown
  constructor
  · by_contra hbig
    have hmul : unit * (2 ^ 24 + 1) ≤ unit * significand32 n d := Nat.mul_le_mul_left _ (by omega)
    omega
  · refine hlo.imp_right fun hle => ?_
    by_contra hsmall
    have hmul : unit * significand32 n d ≤ unit * (2 ^ 23 - 1) := Nat.mul_le_mul_left _ (by omega)
    omega

/-- A rational rounds to a finite pattern exactly where it lies below the largest finite binary32 and half a step. -/
theorem significand32_finite_iff (n : Nat) {d : Nat} (hd : 0 < d) :
    significand32 n d + binade32 n d * 2 ^ 23 < 255 * 2 ^ 23 ↔ n < d * ((2 ^ 25 - 1) * 2 ^ 103) := by
  obtain ⟨hm, hm23⟩ := significand32_bounds n hd
  obtain ⟨hhi, hlo⟩ := binade32_bounds n hd
  have hunit : 0 < d * 2 ^ binade32 n d := by positivity
  obtain ⟨hup, hdown, htie⟩ := divNearestEven_near (n * 2 ^ 149) _ hunit
  rw [← significand32] at hup hdown htie
  rcases lt_trichotomy (binade32 n d) 253 with hk | hk | hk
  · have hunit_le : d * 2 ^ binade32 n d ≤ d * 2 ^ 252 :=
      Nat.mul_le_mul_left _ (Nat.pow_le_pow_right (by omega) (by omega))
    constructor <;> omega
  · rw [hk] at hup hdown htie ⊢
    generalize significand32 n d = m at *
    by_cases htop : m = 2 ^ 24
    · subst htop
      constructor <;> omega
    · have hlow : m < 2 ^ 24 - 1 ∨ m = 2 ^ 24 - 1 := by omega
      rcases hlow with hlow | rfl
      · have hmul : d * 2 ^ 253 * m ≤ d * 2 ^ 253 * (2 ^ 24 - 2) := Nat.mul_le_mul_left _ (by omega)
        constructor <;> omega
      · constructor <;> omega
  · have hunit_le : d * 2 ^ 254 ≤ d * 2 ^ binade32 n d :=
      Nat.mul_le_mul_left _ (Nat.pow_le_pow_right (by omega) (by omega))
    constructor <;> omega

/-! ## The nearest multiple -/

/-- Where `m · D` is within half of `D` of `x`, every other multiple of `D` is at least as far from `x`, and as far only if
`m · D` is at exactly half. -/
theorem nearest_multiple {D x m j : Int} (hnear : 2 * |m * D - x| ≤ D) (hj : j ≠ m) :
    |m * D - x| ≤ |j * D - x| ∧ (|m * D - x| = |j * D - x| → 2 * |m * D - x| = D) := by
  have hD : 0 ≤ D := le_trans (by positivity) hnear
  have hstep : D ≤ |j * D - m * D| := by
    rw [← sub_mul, abs_mul, abs_of_nonneg hD]
    exact le_mul_of_one_le_left hD (Int.one_le_abs (sub_ne_zero.2 hj))
  have htriangle : |j * D - m * D| ≤ |j * D - x| + |m * D - x| := by
    rw [abs_sub_comm (m * D) x]
    exact abs_sub_le _ _ _
  constructor
  · omega
  · omega

/-- Where `m · D` is within half of `D` of `x`, a number below the binade of `x` is farther from it than `m · D`. -/
theorem nearer_than_below_binade {D x m y : Int} (hnear : 2 * |m * D - x| ≤ D) (hx : 2 ^ 23 * D ≤ x)
    (hy : y < 2 ^ 23 * D) : |m * D - x| < |y - x| := by
  have hlow : |m * D - x| ≤ |2 ^ 23 * D - x| := by
    by_cases hm : m = 2 ^ 23
    · rw [hm]
    · exact (nearest_multiple hnear (Ne.symm hm)).1
  rw [abs_of_nonpos (sub_nonpos.2 hx)] at hlow
  rw [abs_of_nonpos (show y - x ≤ 0 by omega)]
  omega

/-! ## The rounding -/

/-- The significand is at most half a unit away, and even at exactly half. -/
theorem significand32_near (n : Nat) {d : Nat} (hd : 0 < d) :
    2 * |(significand32 n d : Int) * (d * 2 ^ binade32 n d : Nat) - (n * 2 ^ 149 : Nat)| ≤ (d * 2 ^ binade32 n d : Nat)
      ∧ (2 * |(significand32 n d : Int) * (d * 2 ^ binade32 n d : Nat) - (n * 2 ^ 149 : Nat)|
          = (d * 2 ^ binade32 n d : Nat) → significand32 n d % 2 = 0) := by
  obtain ⟨hup, hdown, htie⟩ := divNearestEven_near (n * 2 ^ 149) (d * 2 ^ binade32 n d) (by positivity)
  rw [← significand32] at hup hdown htie
  rw [Nat.mul_comm (d * 2 ^ binade32 n d)] at hup hdown htie
  rw [← Nat.cast_mul]
  generalize significand32 n d * (d * 2 ^ binade32 n d) = rounded at *
  rcases abs_cases ((rounded : Int) - (n * 2 ^ 149 : Nat)) with ⟨habs, _⟩ | ⟨habs, _⟩
  · rw [habs]
    omega
  · rw [habs]
    omega

/-- A finite rounded pattern is a multiple of its binade, with the parity of its significand. -/
theorem binary32OfRatio_finite {n d : Nat} (hd : 0 < d) (h : n < d * ((2 ^ 25 - 1) * 2 ^ 103)) :
    isFinite32 (binary32OfRatio n d) = true
      ∧ units32 (binary32OfRatio n d) = significand32 n d * 2 ^ binade32 n d
      ∧ fraction32 (binary32OfRatio n d) % 2 = significand32 n d % 2 := by
  have hfin := (significand32_finite_iff n hd).2 h
  obtain ⟨hm, hm23⟩ := significand32_bounds n hd
  rw [binary32OfRatio_eq, min_eq_left hfin.le]
  refine ⟨?_, pattern_of_significand hm hm23 hfin⟩
  obtain ⟨hexp, _⟩ := fields_ofNat (p := significand32 n d + binade32 n d * 2 ^ 23) (by omega)
  rw [isFinite32, hexp]
  exact decide_eq_true (by omega)

/-- Past the largest finite binary32 and half a step the rounded pattern is infinity (notes/assumptions/26.md). -/
theorem binary32OfRatio_infinite {n d : Nat} (hd : 0 < d) (h : ¬ n < d * ((2 ^ 25 - 1) * 2 ^ 103)) :
    binary32OfRatio n d = 0x7F800000#32 := by
  rw [← significand32_finite_iff n hd, not_lt] at h
  rw [binary32OfRatio_eq, min_eq_right h]
  rfl

/-- No pattern is nearer to the rational than the one it rounds to, and another value as near makes that one's fraction
even. -/
theorem binary32OfRatio_nearest {n d : Nat} (hd : 0 < d) (h : n < d * ((2 ^ 25 - 1) * 2 ^ 103)) (g : F32) :
    |units32 (binary32OfRatio n d) * d - (n * 2 ^ 149 : Nat)| ≤ |units32 g * d - (n * 2 ^ 149 : Nat)|
      ∧ (|units32 (binary32OfRatio n d) * d - (n * 2 ^ 149 : Nat)| = |units32 g * d - (n * 2 ^ 149 : Nat)| →
        units32 g ≠ units32 (binary32OfRatio n d) → fraction32 (binary32OfRatio n d) % 2 = 0) := by
  obtain ⟨_, hunits, hfrac⟩ := binary32OfRatio_finite hd h
  obtain ⟨hnear, htie⟩ := significand32_near n hd
  obtain ⟨_, hbinade⟩ := binade32_bounds n hd
  have hf : units32 (binary32OfRatio n d) * d = significand32 n d * (d * 2 ^ binade32 n d : Nat) := by
    rw [hunits]
    push_cast
    ring
  rw [hf, hfrac]
  rcases units32_dvd_or_lt g (binade32 n d) with ⟨j, hj⟩ | ⟨hk, hlt⟩
  · have hg : units32 g * d = j * (d * 2 ^ binade32 n d : Nat) := by
      rw [hj]
      push_cast
      ring
    rw [hg]
    by_cases hjm : j = significand32 n d
    · refine ⟨by rw [hjm], fun _ hne => absurd ?_ hne⟩
      rw [hunits, hj, hjm, mul_comm]
    · obtain ⟨hle, heq⟩ := nearest_multiple hnear hjm
      exact ⟨hle, fun hsame _ => htie (heq hsame)⟩
  · have hx : (2 ^ 23 : Int) * (d * 2 ^ binade32 n d : Nat) ≤ (n * 2 ^ 149 : Nat) := by
      exact_mod_cast hbinade.resolve_left hk.ne'
    have hg : units32 g * d < 2 ^ 23 * (d * 2 ^ binade32 n d : Nat) :=
      calc units32 g * d < 2 ^ 23 * 2 ^ binade32 n d * d := Int.mul_lt_mul_of_pos_right hlt (by omega)
        _ = 2 ^ 23 * (d * 2 ^ binade32 n d : Nat) := by push_cast; ring
    have hstrict := nearer_than_below_binade hnear hx hg
    exact ⟨hstrict.le, fun hsame => absurd hsame hstrict.ne⟩

end Sys2Proof.Machine

namespace Sys2Proof.Proofs

open Sys2Proof.Machine

/-- Settles O7: the distances are compared in units of 2^-149, where the rounded pattern is the nearest multiple. -/
theorem assemblerRoundsToNearestEven : Obligations.AssemblerRoundsToNearestEven := by
  intro n d hd q f
  by_cases hrange : n < d * ((2 ^ 25 - 1) * 2 ^ 103)
  · obtain ⟨hfin, _⟩ := binary32OfRatio_finite hd hrange
    rw [if_pos hrange]
    refine ⟨hfin, fun _ g _ => ?_⟩
    have hscale : (0 : Rat) < 2 ^ 149 * d := by positivity
    obtain ⟨hle, htie⟩ := binary32OfRatio_nearest hd hrange g
    rw [abs_val32_sub f n hd, abs_val32_sub g n hd, div_le_div_iff_of_pos_right hscale,
      div_left_inj' hscale.ne', Int.cast_le, Int.cast_inj]
    refine ⟨hle, fun heq hne => htie heq fun hsame => hne ?_⟩
    rw [val32_eq, val32_eq, hsame]
  · have hinf : f = 0x7F800000#32 := binary32OfRatio_infinite hd hrange
    rw [if_neg hrange]
    refine ⟨hinf, fun hfin => ?_⟩
    rw [hinf] at hfin
    exact absurd hfin (by decide)

end Sys2Proof.Proofs

/-! SUPPORT. The statements on 40_timing_resolver.md: the output driver and the sampler stay in step (rules R172, R250,
R251), which durations the resolver rejects and what it returns for the others (rules R160 to R171), and RESOLVE's answer
to a rejected one (rules R170, R303). -/

namespace Sys2Proof.Machine

/-! ## The cursors after a tick (rules R49, R250) -/

/-- A remainder by a length that 32 bits hold is held in 32 bits. -/
theorem toNat_ofNat_mod (i : Nat) {w : Word} (h : 0 < w.toNat) :
    (BitVec.ofNat 32 (i % w.toNat)).toNat = i % w.toNat := by
  rw [BitVec.toNat_ofNat]
  exact Nat.mod_eq_of_lt ((Nat.mod_lt i h).trans w.isLt)

/-- A phase inside its sampler period counts up without wrapping round (rule R49). -/
theorem toNat_succ_of_lt {a b : Word} (h : a.toNat < b.toNat) : (a + 1).toNat = a.toNat + 1 := by
  bv_omega

/-- What a tick of a running block does to the cursors, as numbers: the output driver goes on by one element, and either
the sampler period is complete and the sampler goes on by one element, or the phase goes on by one (rule R250). -/
theorem tickStep_cursors {s t : State} {adc : Half} (hs : s.Inv) (hm : s.mode = .running)
    (h : tickStep s adc = .ok t) :
    t.prof = s.prof ∧ t.odIdx.toNat = (s.odIdx.toNat + 1) % s.prof.outLen.toNat
      ∧ ((s.tmPhase.toNat + 1 = s.prof.tsf.toNat ∧ t.tmPhase.toNat = 0
            ∧ t.smpIdx.toNat = (s.smpIdx.toNat + 1) % s.prof.inLen.toNat)
        ∨ (t.tmPhase.toNat = s.tmPhase.toNat + 1 ∧ t.smpIdx = s.smpIdx)) := by
  obtain ⟨_, _, _, _, hbound, hcursors⟩ := hs
  obtain ⟨_, _, _, _, ⟨htmDesc, hodDesc, hsmpDesc⟩, _⟩ := hbound (by simp [hm])
  obtain ⟨_, _, hphase⟩ := hcursors hm
  have htsf : s.tmDesc.tsf = s.prof.tsf := by rw [htmDesc]
  have hout : s.odDesc.length = s.prof.outLen := by rw [hodDesc]
  have hin : s.smpDesc.length = s.prof.inLen := by rw [hsmpDesc]
  have hsucc := toNat_succ_of_lt hphase
  unfold tickStep at h
  split at h
  · cases h
  · rename_i u hu
    obtain ⟨_, hlen, rfl⟩ := tickOutput_spec hu
    rw [hout] at hlen h
    split at h
    · rename_i hcomplete
      obtain ⟨_, _, _, hlenIn, _, rfl⟩ := tickSample_spec h
      have hperiod : s.tmPhase + 1 = s.prof.tsf := hcomplete.trans htsf
      rw [hperiod] at hsucc
      refine ⟨rfl, toNat_ofNat_mod _ hlen, .inl ⟨hsucc.symm, rfl, ?_⟩⟩
      simp only [hin] at hlenIn ⊢
      exact toNat_ofNat_mod _ hlenIn
    · cases h
      exact ⟨rfl, toNat_ofNat_mod _ hlen, .inr ⟨hsucc, rfl⟩⟩

/-! ## The output driver and the sampler in step (rules R172, R251) -/

/-- Both halves of the input buffer together take two traversals of the RampTable (rules R161, R172). -/
theorem State.LengthsExact.two_traversals {s : State} (h : s.LengthsExact) :
    s.prof.inLen.toNat * s.prof.tsf.toNat = 2 * s.prof.outLen.toNat := by
  obtain ⟨hdiv, hin, _⟩ := h
  rw [hin, Nat.mul_assoc, Nat.div_mul_cancel (Nat.dvd_of_mod_eq_zero hdiv)]

/-- Where the sampler's cursor goes round, the output driver's has gone round too: the samples taken since stand for
the same place in the RampTable. -/
theorem mod_mul_mod_of_two_traversals {inLen tsf outLen : Nat} (h : inLen * tsf = 2 * outLen) (n : Nat) :
    n % inLen * tsf % outLen = n * tsf % outLen := by
  rw [← Nat.mul_mod_mul_right, h, Nat.mod_mul_left_mod]

/-- A tick moves the output driver by one element and the samples and the phase by one tick. -/
theorem tickStep_keeps_cursorsInStep {s t : State} {adc : Half} (hs : s.Inv) (hm : s.mode = .running)
    (hexact : s.LengthsExact) (hstep : s.CursorsInStep) (h : tickStep s adc = .ok t) : t.CursorsInStep := by
  intro _
  obtain ⟨hprof, hod, hcase⟩ := tickStep_cursors hs hm h
  have hod' : t.odIdx.toNat
      = (s.smpIdx.toNat * s.prof.tsf.toNat + (s.tmPhase.toNat + 1)) % s.prof.outLen.toNat := by
    rw [hod, hstep hm, Nat.mod_add_mod, Nat.add_assoc]
  rw [hprof, hod']
  rcases hcase with ⟨hcomplete, hphase, hsmp⟩ | ⟨hphase, hsmp⟩
  · rw [hcomplete, hphase, hsmp, Nat.add_zero, mod_mul_mod_of_two_traversals hexact.two_traversals, Nat.succ_mul]
  · rw [hphase, hsmp]

/-- CONFIGURE never leaves the block running (rule R220). -/
theorem execConfigure_not_running {d g : Half} {fs fe fr : F32} {s t : State}
    (h : execConfigure d g fs fe fr s = .next t) : t.mode ≠ .running := by
  rcases execConfigure_cases h with ⟨_, _, rfl⟩ | rfl | ⟨_, _, _, _, _, rfl⟩ | ⟨_, _, _, _, _, rfl⟩ <;> nofun

/-- No instruction but START touches the cursors of a block that still runs after it, and START puts them all to 0. -/
theorem exec_keeps_cursorsInStep {i : Instr} {s t : State} (hs : s.CursorsInStep) (h : exec i s = .next t) :
    t.CursorsInStep := by
  by_cases hconf : isConfigure i = true
  · cases i with
    | configure => exact fun hm => absurd hm (execConfigure_not_running h)
    | _ => cases hconf
  · by_cases hstart : i = .start
    · subst hstart
      rcases execStart_cases h with ⟨_, rfl⟩ | ⟨_, rfl⟩
      · exact hs
      · intro _
        simp [State.startBody]
    · by_cases hstop : i = .stop
      · subst hstop
        cases h
        exact fun hm => absurd hm (stoppedMode_ne_running s.mode)
      · obtain ⟨_, _, _, _, _, _, _, rfl, _⟩ := exec_frame h (by simpa using hconf) hstart hstop
        exact hs

theorem takeTurn_keeps_cursorsInStep {s t : State} {tn : Turn} (hfit : lengthsFit s.cfg = true) (hs : s.Inv)
    (hstep : s.CursorsInStep) (h : takeTurn tn s = .next t) : t.CursorsInStep := by
  rcases takeTurn_cases h with rfl | ⟨c, r, rfl⟩ | ⟨i, c, f, _, hexec⟩ | ⟨adc, _, hm, htick⟩ | ⟨w, _, _, rfl⟩
    | ⟨b, _, rfl⟩
  · exact hstep
  · exact hstep
  · exact exec_keeps_cursorsInStep (s := { s with cmd := c, frameReq := f }) hstep hexec
  · have ⟨_, _, _, _, hbound, _⟩ := hs
    obtain ⟨_, _, _, _, _, hlengths⟩ := hbound (by simp [hm])
    exact tickStep_keeps_cursorsInStep hs hm (hlengths hfit).1 hstep htick
  · exact hstep
  · nofun

/-! ## The checks of the resolver (rules R162 to R169) -/

theorem timingRow_eq_none_iff (c : Config) (d : Half) :
    timingRow c d = none ↔ ∀ row ∈ c.timingTable, row.durationMs ≠ d := by
  simp [timingRow]

/-- The row used is the first of the table with the duration (rule R160). -/
theorem timingRow_eq_some_iff (c : Config) (d : Half) (row : TimingRow) :
    timingRow c d = some row ↔ ∃ before after, c.timingTable = before ++ row :: after
      ∧ row.durationMs = d ∧ ∀ r ∈ before, r.durationMs ≠ d := by
  rw [timingRow, List.find?_eq_some_iff_append]
  constructor
  · rintro ⟨hd, before, after, htable, hbefore⟩
    exact ⟨before, after, htable, by simpa using hd, by simpa using hbefore⟩
  · rintro ⟨before, after, htable, hd, hbefore⟩
    exact ⟨by simpa using hd, before, after, htable, by simpa using hbefore⟩

/-- The overflow check of rule R166: `CH_DELAY` and `OUT_INTERVAL` stay below `SPC` and `HOLD_COUNT`, so
it is those two that fit the counter or do not. -/
theorem countsOverflow_iff (c : Config) (outLen tsf hold : Nat) :
    countsOverflow c (profileOf c outLen tsf hold) = true
      ↔ 2 ^ c.counterWidth - 1 < tsf * hold ∨ 2 ^ c.counterWidth - 1 < hold := by
  rw [countsOverflow, decide_eq_true_iff]
  simp only [profileOf, counterMax]
  omega

theorem notGranular_iff (c : Config) (outLen tsf hold : Nat) :
    notGranular c (profileOf c outLen tsf hold) = true
      ↔ (2 * outLen) % c.dmaGranule ≠ 0 ∨ (2 * (2 * (outLen / tsf))) % c.dmaGranule ≠ 0 :=
  decide_eq_true_iff

/-- The three checks that answer `COUNT_RANGE` in one: a hold count of 0 makes `SPC` 0 (rule R166). -/
theorem countRange_iff (c : Config) (outLen tsf hold : Nat) :
    ((tsf * hold < 1 ∨ tsf * hold < c.settleCount) ∨ hold < 1)
        ∨ countsOverflow c (profileOf c outLen tsf hold) = true
      ↔ tsf * hold = 0 ∨ tsf * hold < c.settleCount ∨ 2 ^ c.counterWidth - 1 < tsf * hold
        ∨ 2 ^ c.counterWidth - 1 < hold := by
  have hzero : hold = 0 → tsf * hold = 0 := fun h => by rw [h, Nat.mul_zero]
  rw [countsOverflow_iff]
  omega

/-- The checks of a row whose length and factor are not zero, as the conditions that rules R165 to R167 state. -/
theorem resolveRow_eq (c : Config) (outLen tsf hold : Nat) :
    resolveRow c outLen tsf hold =
      if outLen % tsf ≠ 0 then .error .inexactDivision
      else if tsf * hold = 0 ∨ tsf * hold < c.settleCount ∨ 2 ^ c.counterWidth - 1 < tsf * hold
          ∨ 2 ^ c.counterWidth - 1 < hold then .error .countRange
      else if (2 * outLen) % c.dmaGranule ≠ 0 ∨ (2 * (2 * (outLen / tsf))) % c.dmaGranule ≠ 0 then .error .granularity
      else .ok (profileOf c outLen tsf hold) := by
  rw [resolveRow, ← ite_or, ← ite_or]
  simp only [countRange_iff, notGranular_iff]

/-- `resolve` of a duration that has a row (rules R163, R164). -/
theorem resolve_of_timingRow {c : Config} {d : Half} {row : TimingRow} (h : timingRow c d = some row) :
    resolve c d = if row.outLen = 0 then .error .unsupportedDuration else if row.tsf = 0 then .error .zeroScale
      else resolveRow c row.outLen row.tsf (holdCount c d row.outLen) := by
  rw [resolve, h]

/-- `resolve` of a duration whose row has a length and a factor that are not zero. -/
theorem resolve_of_nonzero_row {c : Config} {d : Half} {row : TimingRow} (h : timingRow c d = some row)
    (hlen : row.outLen ≠ 0) (htsf : row.tsf ≠ 0) :
    resolve c d = resolveRow c row.outLen row.tsf (holdCount c d row.outLen) := by
  rw [resolve_of_timingRow h, if_neg hlen, if_neg htsf]

/-! ## An accepted profile (rule R171) -/

theorem le_counterMax_of_fits {c : Config} {p : TimingProfile} (h : countsOverflow c p = false) :
    p.holdCount ≤ 2 ^ c.counterWidth - 1 ∧ p.spc ≤ 2 ^ c.counterWidth - 1 ∧ p.chDelay ≤ 2 ^ c.counterWidth - 1
      ∧ p.outInterval ≤ 2 ^ c.counterWidth - 1 := by
  rw [countsOverflow, decide_eq_false_iff_not] at h
  simpa only [not_or, not_lt, counterMax] using h

theorem granular_of_passed {c : Config} {p : TimingProfile} (h : notGranular c p = false) :
    (2 * p.outLen) % c.dmaGranule = 0 ∧ (2 * p.inLen) % c.dmaGranule = 0 := by
  rw [notGranular, decide_eq_false_iff_not] at h
  simpa only [not_or, not_not] using h

theorem resolve_one_le_holdCount {c : Config} {d : Half} {p : TimingProfile} (h : resolve c d = .ok p) :
    1 ≤ p.holdCount := by
  obtain ⟨_, _, _, _, _, hhold, _, _, _, _, rfl⟩ := resolve_spec h
  exact hhold

/-- The two subtractions of `CH_DELAY` stay at zero or above, so that with the settling time it makes up the sampler
period. -/
theorem resolve_chDelay_add_settleCount {c : Config} {d : Half} {p : TimingProfile} (hsettle : 1 ≤ c.settleCount)
    (h : resolve c d = .ok p) : p.chDelay + c.settleCount = p.spc := by
  obtain ⟨_, _, _, _, _, _, _, hspc, _, _, rfl⟩ := resolve_spec h
  simp only [profileOf]
  omega

end Sys2Proof.Machine

namespace Sys2Proof.Proofs

open Sys2Proof.Machine

/-- Settles O25: only a tick moves the cursors of a running block, and it moves both in step. -/
theorem stepKeepsCursorsInStep : Obligations.StepKeepsCursorsInStep := by
  intro s t hfit hs hstep h
  obtain ⟨_, ts, dr, hturn⟩ := step_next h
  exact takeTurn_keeps_cursorsInStep (s := { s with turns := ts, draws := dr }) hfit hs hstep hturn

/-- Settles O37: `resolve` is a chain of checks, and each clause stops at its own. -/
theorem resolverRejectionsInOrder : Obligations.ResolverRejectionsInOrder := by
  intro c d
  refine ⟨timingRow_eq_none_iff c d, timingRow_eq_some_iff c d, fun h => by rw [resolve, h], ?_⟩
  intro row hrow hold spc inLen
  refine ⟨fun hlen => ?_, fun hlen htsf => ?_, fun hlen htsf hdiv => ?_, fun hlen htsf hdiv hcount => ?_,
    fun hlen htsf hdiv hcount hgran => ?_, fun hlen htsf hdiv hcount hgran => ?_⟩
  · rw [resolve_of_timingRow hrow, if_pos hlen]
  · rw [resolve_of_timingRow hrow, if_neg hlen, if_pos htsf]
  · rw [resolve_of_nonzero_row hrow hlen htsf, resolveRow_eq, if_pos hdiv]
  · rw [resolve_of_nonzero_row hrow hlen htsf, resolveRow_eq, if_neg (not_not.2 hdiv), if_pos hcount]
  · rw [resolve_of_nonzero_row hrow hlen htsf, resolveRow_eq, if_neg (not_not.2 hdiv), if_neg hcount, if_pos hgran]
  · rw [resolve_of_nonzero_row hrow hlen htsf, resolveRow_eq, if_neg (not_not.2 hdiv), if_neg hcount, if_neg hgran]
    rfl

/-- Settles O39: the lengths, the counter checks, the settling time and the granularity, each from its own lemma. -/
theorem resolvedProfileIsSound : Obligations.ResolvedProfileIsSound := by
  intro c d p hc h
  obtain ⟨⟨_, _, _, _, hsettle⟩, _⟩ := (configOk_iff c).1 hc
  obtain ⟨hout, htsf, _, hdiv, hin, hhalf⟩ := resolve_lengths h
  obtain ⟨_, _, _, _, _, _, _, _, hfits, hgranular, _⟩ := resolve_spec h
  obtain ⟨hhold, hspc, hdelay, hinterval⟩ := le_counterMax_of_fits hfits
  obtain ⟨hgranOut, hgranIn⟩ := granular_of_passed hgranular
  exact ⟨hin, hdiv, hhold, hspc, hdelay, hinterval, hout, htsf, resolve_one_le_holdCount h, by omega, by omega,
    resolve_chDelay_add_settleCount hsettle h, hgranOut, hgranIn⟩

/-- Settles O38: the resolver's error is raised as it is, with one word for each sub-cause. -/
theorem resolveReportsTheRejection : Obligations.ResolveReportsTheRejection := by
  intro s d e he
  simp only [exec, execResolve, he]
  rw [State.raise, State.respond, responseWords_nil]
  cases e <;> rfl

end Sys2Proof.Proofs

/-! SUPPORT. The statements on 41_ramp_generator.md: the walk over the samples finds what a fresh search finds, what a sample
comes to (rules R182 to R189), and how the codes of a ramp get into the output buffer and onto `OD_OUT` (rules R188, R190,
R195, R250). -/

namespace Sys2Proof.Machine

/-! ## Endpoints and direction (rules R182, R183, R194) -/

theorem endpointOk_eq_false_iff (c : Config) (f : F32) :
    endpointOk c f = false ↔ isFinite32 f = false ∨ val32 f < c.fMin ∨ c.fMax < val32 f := by
  simp only [endpointOk, Bool.and_eq_false_iff, decide_eq_false_iff_not, not_and_or, not_le]

theorem rampLow_eq_min (fs fe : F32) : rampLow fs fe = min (val32 fs) (val32 fe) := rfl

theorem rampHigh_eq_max (fs fe : F32) : rampHigh fs fe = max (val32 fs) (val32 fe) := rfl

theorem rampLow_le_rampHigh (fs fe : F32) : rampLow fs fe ≤ rampHigh fs fe := by
  rw [rampLow_eq_min, rampHigh_eq_max]
  exact min_le_max

/-- The codes of a ramp in the order of its samples, the lowest frequency first, whatever its direction (rule R188). -/
def ascendingCodes (c : Config) (fs fe : F32) (n : Nat) : Except RangeSub (List Half) :=
  if endpointOk c fs && endpointOk c fe then rampWalk c (rampLow fs fe) (rampHigh fs fe) n n 0 0
  else .error .endpoint

theorem rampCodes_eq_map (c : Config) (fs fe : F32) (n : Nat) :
    rampCodes c fs fe n
      = (ascendingCodes c fs fe n).map fun vs => if descending fs fe then vs.reverse else vs := by
  unfold rampCodes ascendingCodes
  split
  · cases rampWalk c (rampLow fs fe) (rampHigh fs fe) n n 0 0 <;> rfl
  · rfl

theorem rampCodes_eq_error_iff {c : Config} {fs fe : F32} {n : Nat} {e : RangeSub} :
    rampCodes c fs fe n = .error e ↔ ascendingCodes c fs fe n = .error e := by
  rw [rampCodes_eq_map]
  cases ascendingCodes c fs fe n <;> simp [Except.map]

theorem rampCodes_eq_ok_iff {c : Config} {fs fe : F32} {n : Nat} {vs : List Half} :
    rampCodes c fs fe n = .ok vs
      ↔ ascendingCodes c fs fe n = .ok (if descending fs fe then vs.reverse else vs) := by
  rw [rampCodes_eq_map]
  cases ascendingCodes c fs fe n with
  | error e => simp [Except.map]
  | ok ws =>
    simp only [Except.map, Except.ok.injEq]
    split
    · exact List.reverse_eq_iff
    · exact Iff.rfl

/-- The endpoints stand in the samples only as the lower and the upper one. -/
theorem ascendingCodes_swap (c : Config) (fs fe : F32) (n : Nat) :
    ascendingCodes c fe fs n = ascendingCodes c fs fe n := by
  simp only [ascendingCodes, rampLow_eq_min, rampHigh_eq_max, Bool.and_comm, min_comm, max_comm]

theorem endpointOk_of_ascendingCodes {c : Config} {fs fe : F32} {n : Nat} {vs : List Half}
    (h : ascendingCodes c fs fe n = .ok vs) : endpointOk c fs = true ∧ endpointOk c fe = true := by
  unfold ascendingCodes at h
  split at h
  · exact (Bool.and_eq_true _ _).mp ‹_›
  · cases h

/-! ## Sample frequencies (rule R184) -/

theorem sampleFreq_zero (c : Config) (lo hi : Rat) (n : Nat) : sampleFreq c lo hi n 0 = lo := by
  unfold sampleFreq
  split
  · simp
  · simp

theorem sampleFreq_last_nMinusOne {c : Config} (hdiv : c.stepDivisor = .nMinusOne) (lo hi : Rat) {n : Nat} (hn : 2 ≤ n) :
    sampleFreq c lo hi n (n - 1) = hi := by
  have hpos : (n : Rat) - 1 ≠ 0 := by
    have : (2 : Rat) ≤ n := by exact_mod_cast hn
    linarith
  simp only [sampleFreq, hdiv, show n ≠ 1 by omega, if_false]
  rw [Nat.cast_pred (by omega), mul_div_cancel_right₀ _ hpos, add_sub_cancel]

theorem sampleFreq_last_n {c : Config} (hdiv : c.stepDivisor = .n) (lo hi : Rat) {n : Nat} (hn : 1 ≤ n) :
    sampleFreq c lo hi n (n - 1) = hi - (hi - lo) / n := by
  have hpos : (n : Rat) ≠ 0 := by positivity
  simp only [sampleFreq, hdiv]
  rw [Nat.cast_pred hn]
  field_simp
  ring

/-- The samples rise from the lower endpoint to the upper one. -/
theorem sampleFreq_mono (c : Config) {lo hi : Rat} (hle : lo ≤ hi) {n : Nat} (hn : 1 ≤ n) :
    Monotone (sampleFreq c lo hi n) := by
  intro i j hij
  have hspan : 0 ≤ hi - lo := sub_nonneg.2 hle
  have hsteps : (0 : Rat) ≤ n - 1 := by
    rw [sub_nonneg]
    exact_mod_cast hn
  unfold sampleFreq
  split
  · split
    · exact le_rfl
    · gcongr
  · gcongr

/-- Between equal endpoints every sample is the endpoint. -/
theorem sampleFreq_self (c : Config) (f : Rat) (n i : Nat) : sampleFreq c f f n i = f := by
  unfold sampleFreq
  split
  · simp
  · simp

/-! ## The segment of a sample (rule R185) -/

theorem lowestSegment_eq_some_iff (c : Config) (f : Rat) (k : Nat) :
    lowestSegment c f = some k
      ↔ k < segmentCount c ∧ f ≤ breakpoint c (k + 1) ∧ ∀ j < k, breakpoint c (j + 1) < f := by
  simp only [lowestSegment, List.find?_range_eq_some, decide_eq_true_eq, List.mem_range, Bool.not_eq_true',
    decide_eq_false_iff_not, not_le]
  tauto

theorem lowestSegment_eq_none_iff (c : Config) (f : Rat) :
    lowestSegment c f = none ↔ ∀ k < segmentCount c, breakpoint c (k + 1) < f := by
  simp [lowestSegment]

theorem freshSample_of_below {c : Config} {lo hi : Rat} {n i : Nat}
    (h : sampleFreq c lo hi n i < breakpoint c 0) : freshSample c lo hi n i = .below :=
  if_pos h

theorem freshSample_of_above {c : Config} {lo hi : Rat} {n i : Nat}
    (hlo : breakpoint c 0 ≤ sampleFreq c lo hi n i) (h : lowestSegment c (sampleFreq c lo hi n i) = none) :
    freshSample c lo hi n i = .exhausted := by
  simp only [freshSample, not_lt.2 hlo, if_false, h]

theorem freshSample_of_segment {c : Config} {lo hi : Rat} {n i k : Nat}
    (hlo : breakpoint c 0 ≤ sampleFreq c lo hi n i) (h : lowestSegment c (sampleFreq c lo hi n i) = some k) :
    freshSample c lo hi n i = .code (outputCode c (tuningVoltage c k (sampleFreq c lo hi n i))) := by
  simp only [freshSample, not_lt.2 hlo, if_false, h]

/-! ## The walk of the cursor (rules R185, R189) -/

/-- The cursor has passed no segment but those whose upper breakpoint the sample `f` exceeds. -/
def CursorBehind (c : Config) (f : Rat) (k : Nat) : Prop :=
  k ≤ segmentCount c ∧ ∀ j < k, breakpoint c (j + 1) < f

theorem cursorBehind_zero (c : Config) (f : Rat) : CursorBehind c f 0 :=
  ⟨Nat.zero_le _, nofun⟩

theorem CursorBehind.mono {c : Config} {f g : Rat} {k : Nat} (h : CursorBehind c f k) (hfg : f ≤ g) :
    CursorBehind c g k := by
  obtain ⟨hk, hpassed⟩ := h
  exact ⟨hk, fun j hj => lt_of_lt_of_le (hpassed j hj) hfg⟩

/-- A cursor behind the sample walks on to a segment that the sample does not exceed, or past the last one. -/
theorem advanceMulti_spec {c : Config} {f : Rat} {left k : Nat} (hk : CursorBehind c f k)
    (hleft : k + left = segmentCount c) :
    CursorBehind c f (advanceMulti c f left k)
      ∧ (advanceMulti c f left k < segmentCount c → f ≤ breakpoint c (advanceMulti c f left k + 1)) := by
  induction left generalizing k with
  | zero => exact ⟨hk, fun hlt => by simp only [advanceMulti] at hlt; omega⟩
  | succ left ih =>
    rw [advanceMulti]
    split
    · rename_i hexceeds
      refine ih ⟨by omega, fun j hj => ?_⟩ (by omega)
      rcases Nat.lt_succ_iff_lt_or_eq.1 hj with hlt | rfl
      · exact hk.2 j hlt
      · exact hexceeds
    · rename_i hstays
      exact ⟨hk, fun _ => not_lt.1 hstays⟩

/-- A cursor behind the sample advances to the lowest segment of a fresh search, or past the last one where the search
finds none. -/
theorem advanceCursor_eq_lowestSegment {c : Config} (hmulti : c.segmentAdvance = .multi) {f : Rat} {k : Nat}
    (hk : CursorBehind c f k) :
    CursorBehind c f (advanceCursor c f k)
      ∧ lowestSegment c f = if advanceCursor c f k = segmentCount c then none else some (advanceCursor c f k) := by
  have hwalk : advanceCursor c f k = advanceMulti c f (segmentCount c - k) k := by simp only [advanceCursor, hmulti]
  obtain ⟨hbehind, hreached⟩ := advanceMulti_spec hk (Nat.add_sub_cancel' hk.1)
  rw [← hwalk] at hbehind hreached
  refine ⟨hbehind, ?_⟩
  obtain ⟨hle, hpassed⟩ := hbehind
  split
  · rename_i hend
    rw [lowestSegment_eq_none_iff, ← hend]
    exact hpassed
  · have hlt := lt_of_le_of_ne hle ‹_›
    exact (lowestSegment_eq_some_iff ..).2 ⟨hlt, hreached hlt, hpassed⟩

/-- With its cursor behind the sample, the walk comes to what a fresh search comes to, and its cursor stays behind. -/
theorem exactSample_eq_freshSample {c : Config} (hmulti : c.segmentAdvance = .multi) {lo hi : Rat} {n i k : Nat}
    (hk : CursorBehind c (sampleFreq c lo hi n i) k) :
    (exactSample c lo hi n i k).2 = freshSample c lo hi n i
      ∧ CursorBehind c (sampleFreq c lo hi n i) (exactSample c lo hi n i k).1 := by
  obtain ⟨hbehind, hsegment⟩ := advanceCursor_eq_lowestSegment hmulti hk
  simp only [exactSample]
  split
  · rename_i hbelow
    exact ⟨(freshSample_of_below hbelow).symm, hk⟩
  · rename_i hlo
    split
    · rename_i hend
      rw [if_pos hend] at hsegment
      exact ⟨(freshSample_of_above (not_lt.1 hlo) hsegment).symm, hbehind⟩
    · rename_i hin
      rw [if_neg hin] at hsegment
      exact ⟨(freshSample_of_segment (not_lt.1 hlo) hsegment).symm, hbehind⟩

/-! ## The walk of the samples (rule R189) -/

theorem rampWalk_succ_eq_ok_iff {c : Config} {lo hi : Rat} {n left i k : Nat} {vs : List Half} :
    rampWalk c lo hi n (left + 1) i k = .ok vs
      ↔ ∃ v ws, vs = v :: ws ∧ checkedCode c (rampSample c lo hi n i k).2 = .ok v
        ∧ rampWalk c lo hi n left (i + 1) (rampSample c lo hi n i k).1 = .ok ws := by
  rw [rampWalk]
  cases checkedCode c (rampSample c lo hi n i k).2 with
  | error e => simp
  | ok v =>
    cases rampWalk c lo hi n left (i + 1) (rampSample c lo hi n i k).1 with
    | error e => simp
    | ok ws => simp [eq_comm]

theorem rampWalk_succ_eq_error_iff {c : Config} {lo hi : Rat} {n left i k : Nat} {e : RangeSub} :
    rampWalk c lo hi n (left + 1) i k = .error e
      ↔ checkedCode c (rampSample c lo hi n i k).2 = .error e
        ∨ (∃ v, checkedCode c (rampSample c lo hi n i k).2 = .ok v)
          ∧ rampWalk c lo hi n left (i + 1) (rampSample c lo hi n i k).1 = .error e := by
  rw [rampWalk]
  cases checkedCode c (rampSample c lo hi n i k).2 with
  | error e' => simp
  | ok v =>
    cases rampWalk c lo hi n left (i + 1) (rampSample c lo hi n i k).1 with
    | error e' => simp
    | ok ws => simp

/-- Sample `i` evaluated with a fresh search, as a legal code or the sub-cause of its failure. -/
def freshCode (c : Config) (lo hi : Rat) (n i : Nat) : Except RangeSub Half :=
  checkedCode c (freshSample c lo hi n i)

/-- Between equal endpoints every sample is the first one. -/
theorem freshCode_self (c : Config) (f : Rat) (n i : Nat) : freshCode c f f n i = freshCode c f f n 0 := by
  simp only [freshCode, freshSample, sampleFreq_self]

section FreshWalk

variable {c : Config} (harith : c.rampArith = .exact) (hmulti : c.segmentAdvance = .multi) {lo hi : Rat} (hle : lo ≤ hi)
  {n left i k : Nat}

include harith hmulti hle in
/-- One sample of a walk whose cursor is behind it comes to its fresh code, and leaves the cursor behind the next one. -/
theorem rampSample_fresh (hn : i < n) (hk : CursorBehind c (sampleFreq c lo hi n i) k) :
    checkedCode c (rampSample c lo hi n i k).2 = freshCode c lo hi n i
      ∧ CursorBehind c (sampleFreq c lo hi n (i + 1)) (rampSample c lo hi n i k).1 := by
  obtain ⟨houtcome, hbehind⟩ := exactSample_eq_freshSample hmulti hk
  simp only [rampSample, harith]
  exact ⟨congrArg (checkedCode c) houtcome, hbehind.mono (sampleFreq_mono c hle (by omega) (Nat.le_succ i))⟩

include harith hmulti hle in
/-- A walk succeeds with the fresh codes of its samples. -/
theorem rampWalk_eq_ok_iff_fresh (hn : i + left ≤ n) (hk : CursorBehind c (sampleFreq c lo hi n i) k) {vs : List Half} :
    rampWalk c lo hi n left i k = .ok vs
      ↔ vs.length = left ∧ ∀ j < left, freshCode c lo hi n (i + j) = .ok (vs.getD j 0) := by
  induction left generalizing i k vs with
  | zero => simp [rampWalk, eq_comm (a := [])]
  | succ left ih =>
    obtain ⟨hcode, hbehind⟩ := rampSample_fresh harith hmulti hle (by omega) hk
    rw [rampWalk_succ_eq_ok_iff, hcode]
    cases vs with
    | nil => simp
    | cons v vs =>
      rw [Nat.forall_lt_succ_left]
      simp [ih (by omega) hbehind, Nat.add_right_comm, Nat.add_assoc, and_left_comm]

include harith hmulti hle in
/-- A walk fails as the first of its samples that fails. -/
theorem rampWalk_eq_error_iff_fresh (hn : i + left ≤ n) (hk : CursorBehind c (sampleFreq c lo hi n i) k) {e : RangeSub} :
    rampWalk c lo hi n left i k = .error e
      ↔ ∃ m < left, (∀ j < m, ∃ v, freshCode c lo hi n (i + j) = .ok v) ∧ freshCode c lo hi n (i + m) = .error e := by
  induction left generalizing i k with
  | zero => simp [rampWalk]
  | succ left ih =>
    obtain ⟨hcode, hbehind⟩ := rampSample_fresh harith hmulti hle (by omega) hk
    rw [rampWalk_succ_eq_error_iff, hcode, ih (by omega) hbehind, Nat.exists_lt_succ_left]
    simp only [Nat.forall_lt_succ_left, Nat.add_zero, Nat.not_lt_zero, IsEmpty.forall_iff, implies_true, true_and,
      and_assoc, and_left_comm (b := ∃ v, freshCode c lo hi n i = .ok v), exists_and_left, Nat.add_assoc, Nat.add_comm 1]

end FreshWalk

/-- Under exact arithmetic and `multi`, a ramp of admitted endpoints succeeds with the fresh codes of its samples. -/
theorem ascendingCodes_eq_ok_iff_fresh {c : Config} {fs fe : F32} (harith : c.rampArith = .exact)
    (hmulti : c.segmentAdvance = .multi) (hfs : endpointOk c fs = true) (hfe : endpointOk c fe = true) {n : Nat}
    {vs : List Half} :
    ascendingCodes c fs fe n = .ok vs
      ↔ vs.length = n ∧ ∀ i < n, freshCode c (rampLow fs fe) (rampHigh fs fe) n i = .ok (vs.getD i 0) := by
  rw [ascendingCodes, hfs, hfe, Bool.and_self, if_pos rfl, rampWalk_eq_ok_iff_fresh harith hmulti
    (rampLow_le_rampHigh fs fe) (Nat.zero_add n).le (cursorBehind_zero _ _)]
  simp only [Nat.zero_add]

/-- Under exact arithmetic and `multi`, a ramp of admitted endpoints fails as the first of its samples that fails. -/
theorem ascendingCodes_eq_error_iff_fresh {c : Config} {fs fe : F32} (harith : c.rampArith = .exact)
    (hmulti : c.segmentAdvance = .multi) (hfs : endpointOk c fs = true) (hfe : endpointOk c fe = true) {n : Nat}
    {e : RangeSub} :
    ascendingCodes c fs fe n = .error e
      ↔ ∃ i < n, (∀ j < i, ∃ v, freshCode c (rampLow fs fe) (rampHigh fs fe) n j = .ok v)
        ∧ freshCode c (rampLow fs fe) (rampHigh fs fe) n i = .error e := by
  rw [ascendingCodes, hfs, hfe, Bool.and_self, if_pos rfl, rampWalk_eq_error_iff_fresh harith hmulti
    (rampLow_le_rampHigh fs fe) (Nat.zero_add n).le (cursorBehind_zero _ _)]
  simp only [Nat.zero_add]

/-- A ramp between equal endpoints has one frequency, so its codes are one code. -/
theorem ascendingCodes_reverse_of_eq {c : Config} {fs fe : F32} (harith : c.rampArith = .exact)
    (hmulti : c.segmentAdvance = .multi) (heq : val32 fs = val32 fe) {n : Nat} {vs : List Half}
    (h : ascendingCodes c fs fe n = .ok vs) : vs.reverse = vs := by
  have hends := endpointOk_of_ascendingCodes h
  obtain ⟨hlen, hcodes⟩ := (ascendingCodes_eq_ok_iff_fresh harith hmulti hends.1 hends.2).1 h
  simp only [rampLow_eq_min, rampHigh_eq_max, heq, min_self, max_self, freshCode_self] at hcodes
  have hconst : ∀ v ∈ vs, v = vs.getD 0 0 := by
    intro v hv
    obtain ⟨i, hi, rfl⟩ := List.getElem_of_mem hv
    have hsame := (hcodes i (hlen ▸ hi)).symm.trans (hcodes 0 (by omega))
    rw [← List.getD_eq_getElem vs 0 hi]
    exact Except.ok.inj hsame
  rw [List.eq_replicate_of_mem hconst, List.reverse_replicate]

/-! ## The code of a sample (rules R186, R187) -/

/-- Of a number that is not negative, the nearest integer, and on a tie the greater one. -/
theorem floor_add_half_eq {q : Rat} {z : Int} (hq : 0 ≤ q) (hnear : |q - z| ≤ 1 / 2)
    (htie : |q - z| = 1 / 2 → |q| < |(z : Rat)|) : (q + 1 / 2).floor = z := by
  obtain ⟨hlo, hhi⟩ := abs_le.1 hnear
  have hz : 0 ≤ z := by
    have hlow : (-1 : Rat) < z := by linarith
    have hlow' : (-1 : Int) < z := by exact_mod_cast hlow
    omega
  have hz' : (0 : Rat) ≤ z := by exact_mod_cast hz
  have hstrict : q - z ≠ 1 / 2 := by
    intro htop
    have hlt := htie (by rw [htop]; norm_num)
    rw [abs_of_nonneg hq, abs_of_nonneg hz'] at hlt
    linarith
  have hlt : q - z < 1 / 2 := lt_of_le_of_ne hhi hstrict
  change ⌊q + 1 / 2⌋ = z
  rw [Int.floor_eq_iff]
  constructor
  · linarith
  · linarith

/-- Rounding gives the nearest integer, and on a tie the one farther from zero (rule R11). -/
theorem roundAway_eq_of_nearest {q : Rat} {z : Int} (hnear : |q - z| ≤ 1 / 2)
    (htie : |q - z| = 1 / 2 → |q| < |(z : Rat)|) : roundAway q = z := by
  unfold roundAway
  split
  · rename_i hneg
    have hflip : |-q - ((-z : Int) : Rat)| = |q - z| := by
      rw [← abs_neg]
      push_cast
      ring_nf
    rw [floor_add_half_eq (z := -z) (by linarith) (hflip ▸ hnear) (fun h => ?_), neg_neg]
    push_cast
    rw [abs_neg, abs_neg]
    exact htie (hflip ▸ h)
  · rename_i hpos
    exact floor_add_half_eq (not_lt.1 hpos) hnear htie

/-- The Horner form of the tuning voltage is the cubic of its segment (rule R186). -/
theorem tuningVoltage_eq_cubic {c : Config} {k : Nat} {q : Cubic} (hq : c.cal.cubics[k]? = some q) (f : Rat) :
    tuningVoltage c k f = q.c0 + q.c1 * (f - breakpoint c k) + q.c2 * (f - breakpoint c k) ^ 2
      + q.c3 * (f - breakpoint c k) ^ 3 := by
  have hcubic : cubicAt c k = q := by rw [cubicAt, List.getD_eq_getElem?_getD, hq, Option.getD_some]
  simp only [tuningVoltage, hcubic]
  ring

theorem checkedCode_of_legal {c : Config} {z : Int} (hmax : c.maxCode ≤ 65535) (hz : 0 ≤ z ∧ z ≤ c.maxCode) :
    ∃ v : Half, checkedCode c (.code z) = .ok v ∧ (v.toNat : Int) = z := by
  refine ⟨BitVec.ofInt 16 z, if_neg (by omega), ?_⟩
  rw [BitVec.toNat_ofInt]
  omega

theorem checkedCode_of_illegal {c : Config} {z : Int} (hz : ¬ (0 ≤ z ∧ z ≤ c.maxCode)) :
    checkedCode c (.code z) = .error .codeRange :=
  if_pos (by omega)

/-! ## Codes in the output buffer (rules R81, R188, R190) -/

/-- From `s` to `t` the elements `vs` were written from element `off` of a buffer on, and nothing else changed. -/
structure WroteElements (s t : State) (b : SampleBuf) (off : Nat) (vs : List Half) : Prop where
  written : ∀ i < vs.length, elementAt t b (off + i) = vs.getD i 0
  outside : ∀ a, (a < elementAddr b off ∨ elementAddr b off + 2 * vs.length ≤ a) → t.byteAt .buf a = s.byteAt .buf a
  frame : t = { s with buf := t.buf }

theorem writeElements_wrote {s t : State} {b : SampleBuf} {len off : Nat} {vs : List Half}
    (h : writeElements s b len off vs = .ok t) : WroteElements s t b off vs := by
  rcases writeElements_spec h with ⟨rfl, rfl⟩ | ⟨_, _, _, _, rfl⟩
  · exact ⟨nofun, fun _ _ => rfl, rfl⟩
  · refine ⟨fun i hi => ?_, fun a ha => ?_, rfl⟩
    · rw [elementAt_write s b off hi, List.getD_eq_getElem _ _ hi]
    · rw [← length_bytesOfHalves] at ha
      exact Memory.byteAt_write_of_not _ _ ha

/-- Two writes that meet are one write of both lists. -/
theorem WroteElements.append {s t u : State} {b : SampleBuf} {off : Nat} {vs ws : List Half}
    (hv : WroteElements s t b off vs) (hw : WroteElements t u b (off + vs.length) ws) :
    WroteElements s u b off (vs ++ ws) := by
  have haddr : ∀ j, elementAddr b (off + j) = elementAddr b off + 2 * j := fun j => by unfold elementAddr; omega
  have hmid := haddr vs.length
  refine ⟨fun i hi => ?_, fun a ha => ?_, by rw [hw.frame, hv.frame]⟩
  · rw [List.length_append] at hi
    by_cases hfirst : i < vs.length
    · have hi := haddr i
      have hkept : elementAt u b (off + i) = elementAt t b (off + i) := by
        rw [elementAt, hw.outside _ (.inl (by omega)), hw.outside _ (.inl (by omega)), elementAt]
      rw [hkept, hv.written i hfirst, List.getD_append _ _ _ _ hfirst]
    · have hread := hw.written (i - vs.length) (by omega)
      rw [Nat.add_assoc, Nat.add_sub_cancel' (not_lt.1 hfirst)] at hread
      rw [hread, List.getD_append_right _ _ _ _ (not_lt.1 hfirst)]
  · rw [List.length_append] at ha
    rw [hw.outside a (by omega), hv.outside a (by omega)]

theorem generate_done_wrote {s t : State} {len : Nat} {fs fe : F32} {n off : Nat}
    (h : generate s len fs fe n off = .ok (.done t)) :
    ∃ vs, rampCodes s.cfg fs fe n = .ok vs ∧ vs.length = n ∧ WroteElements s t s.outBuf off vs := by
  rcases generate_spec h with ⟨_, _, hr⟩ | ⟨vs, _, hcodes, hwrite, hr⟩
  · cases hr
  · cases hr
    exact ⟨vs, hcodes, (rampCodes_spec hcodes).1, writeElements_wrote hwrite⟩

/-- The filling of the output buffer writes the RampTable from the first element on: the second ramp of a triangle stands
where the first one ends. -/
theorem fillRamp_done_wrote {s t : State} {q : Request} {len : Nat} (h : fillRamp s q len = .ok (.done t)) :
    ∃ codes, rampTable s.cfg q len = .ok codes ∧ codes.length = len ∧ WroteElements s t s.outBuf 0 codes := by
  unfold fillRamp at h
  unfold rampTable
  split at h
  · rename_i hsaw
    rw [if_pos hsaw]
    exact generate_done_wrote h
  · rename_i htri
    rw [if_neg htri]
    split at h
    · rename_i u hup
      obtain ⟨up, hupCodes, hupLen, hupWrote⟩ := generate_done_wrote hup
      obtain ⟨down, hdownCodes, hdownLen, hdownWrote⟩ := generate_done_wrote h
      have hcfg : u.cfg = s.cfg := by rw [hupWrote.frame]
      have hbuf : u.outBuf = s.outBuf := by rw [hupWrote.frame]
      rw [hcfg] at hdownCodes
      rw [hbuf] at hdownWrote
      refine ⟨up ++ down, by rw [hupCodes, hdownCodes], by rw [List.length_append]; omega, hupWrote.append ?_⟩
      rw [hupLen, Nat.zero_add]
      exact hdownWrote
    · cases h
    · cases h

/-! ## GENERATE (rule R195) -/

theorem generate_of_codes {s : State} {len : Nat} {fs fe : F32} {n off : Nat} {vs : List Half}
    (hcodes : rampCodes s.cfg fs fe n = .ok vs) (hregion : off + n ≤ len) (heven : s.outBuf.base.toNat % 2 = 0)
    (hfits : s.outBuf.base.toNat + 2 * len ≤ s.cfg.bufCapacity) :
    ∃ t, generate s len fs fe n off = .ok (.done t) ∧ WroteElements s t s.outBuf off vs := by
  have hlen : vs.length = n := (rampCodes_spec hcodes).1
  have hwrite := writeElements_eq_ok (s := s) (b := s.outBuf) (len := len) (i := off) (vs := vs) (by omega) heven
    (by unfold elementAddr; omega)
  refine ⟨_, ?_, writeElements_wrote hwrite⟩
  rw [generate, hcodes]
  simp only [hwrite]

section Region

variable {s t : State} {n off : Half} {fs fe : F32} (hm : s.mode = .configured)
  (hregion : off.toNat + n.toNat ≤ s.outBuf.len.toNat)

include hm hregion

/-- GENERATE in `Configured`, with its region inside `OUT_BUF`, answers a ramp that succeeds with `OK`. -/
theorem execGenerate_of_done (hgen : generate s s.outBuf.len.toNat fs fe n.toNat off.toNat = .ok (.done t)) :
    execGenerate n off fs fe s = .next (t.respond .ok []) := by
  simp only [execGenerate, hm, ne_eq, not_true, if_false, not_lt.2 hregion, hgen]

/-- GENERATE in `Configured`, with its region inside `OUT_BUF`, answers a ramp that fails with its sub-cause. -/
theorem execGenerate_of_rangeError {e : RangeSub} (he : rampCodes s.cfg fs fe n.toNat = .error e) :
    execGenerate n off fs fe s = .next (s.raise (.rangeError e)) := by
  simp only [execGenerate, hm, ne_eq, not_true, if_false, not_lt.2 hregion, generate, he]

end Region

/-! ## Codes on `OD_OUT` (rules R187, R250) -/

theorem odOut_not_mem_releaseEvents (s : State) (v : Half) : Event.odOut v ∉ releaseEvents s := by
  unfold releaseEvents
  split <;> split <;> simp

/-- No instruction emits a code: those in the history were there before. -/
theorem exec_odOut_mem {i : Instr} {s t : State} {v : Half} (h : exec i s = .next t)
    (hv : Event.odOut v ∈ t.history) : Event.odOut v ∈ s.history := by
  by_cases hconf : isConfigure i = true
  · cases i with
    | configure =>
      rcases execConfigure_cases h with ⟨_, _, rfl⟩ | rfl | ⟨_, _, _, _, _, rfl⟩ | ⟨_, _, _, _, _, rfl⟩ <;>
        simpa [odOut_not_mem_releaseEvents] using hv
    | _ => cases hconf
  · by_cases hstart : i = .start
    · subst hstart
      rcases execStart_cases h with ⟨_, rfl⟩ | ⟨_, rfl⟩
      · exact hv
      · exact hv
    · by_cases hstop : i = .stop
      · subst hstop
        cases h
        exact hv
      · obtain ⟨_, _, _, _, evs, _, _, rfl, hframes, _⟩ := exec_frame h (by simpa using hconf) hstart hstop
        rcases List.mem_append.1 hv with hv | hv
        · exact hv
        · obtain ⟨F, hF⟩ := hframes _ hv
          cases hF

/-- A tick emits one code, and that is an element of the RampTable. -/
theorem tickStep_odOut_mem {s t : State} {adc v : Half} (hfit : lengthsFit s.cfg = true) (hs : s.Inv)
    (hm : s.mode = .running) (h : tickStep s adc = .ok t) (hv : Event.odOut v ∈ t.history) :
    Event.odOut v ∈ s.history ∨ v.toNat ≤ s.cfg.maxCode := by
  obtain ⟨_, _, _, _, hbound, hcursors⟩ := hs
  obtain ⟨_, _, _, _, _, hlengths⟩ := hbound (by simp [hm])
  obtain ⟨_, hramp⟩ := hlengths hfit
  obtain ⟨hcursor, _⟩ := hcursors hm
  obtain ⟨code, _, _, _, _, _, rfl, hcode, _⟩ := tickStep_frame h
  rcases List.mem_append.1 hv with hv | hv
  · exact .inl hv
  · have hvcode : v = code := by simpa using hv
    rw [hvcode, hcode]
    exact .inr (hramp _ hcursor)

theorem takeTurn_odOut_mem {s t : State} {tn : Turn} {v : Half} (hfit : lengthsFit s.cfg = true) (hs : s.Inv)
    (h : takeTurn tn s = .next t) (hv : Event.odOut v ∈ t.history) :
    Event.odOut v ∈ s.history ∨ v.toNat ≤ s.cfg.maxCode := by
  rcases takeTurn_cases h with rfl | ⟨c, r, rfl⟩ | ⟨i, c, f, _, hexec⟩ | ⟨adc, _, hm, htick⟩ | ⟨w, _, _, rfl⟩
    | ⟨b, _, rfl⟩
  · exact .inl hv
  · exact .inl hv
  · exact .inl (exec_odOut_mem hexec hv :)
  · exact tickStep_odOut_mem hfit hs hm htick hv
  · exact .inl (by simpa using hv)
  · simp at hv

end Sys2Proof.Machine

namespace Sys2Proof.Proofs

open Sys2Proof.Machine

/-- Settles O28: only a tick emits a code, from the RampTable of the invariant. -/
theorem emittedCodesAreLegal : Obligations.EmittedCodesAreLegal := by
  intro s t v hfit hs h hv
  obtain ⟨_, ts, dr, hturn⟩ := step_next h
  exact (takeTurn_odOut_mem (s := { s with turns := ts, draws := dr }) hfit hs hturn hv :)

/-- Settles O41: the cursor stays behind the rising samples, so from it the walk finds the segment of a fresh search; the
codes of a descending ramp are those of the ascending one back to front. -/
theorem rampWalkIsFreshSearch : Obligations.RampWalkIsFreshSearch := by
  intro c fs fe n _ harith hmulti hfs hfe sample
  constructor
  · intro vs
    rw [rampCodes_eq_ok_iff, ascendingCodes_eq_ok_iff_fresh harith hmulti hfs hfe]
    by_cases hdesc : val32 fe < val32 fs
    · simp only [descending, hdesc, decide_true, if_true, List.length_reverse]
      refine and_congr_right fun hlen => forall₂_congr fun i hi => ?_
      rw [List.getD_reverse i (hlen ▸ hi), hlen]
      exact Iff.rfl
    · simp only [descending, hdesc, decide_false, Bool.false_eq_true, if_false]
      exact Iff.rfl
  · intro e
    rw [rampCodes_eq_error_iff]
    exact ascendingCodes_eq_error_iff_fresh harith hmulti hfs hfe

/-- Settles O43: each sample by the segment of its frequency, and its code by the rounding. -/
theorem rampSamplesSpanTheInterval : Obligations.RampSamplesSpanTheInterval := by
  intro c lo hi n hn
  refine ⟨sampleFreq_zero c lo hi n, fun hdiv hn2 => sampleFreq_last_nMinusOne hdiv lo hi hn2,
    fun hdiv => sampleFreq_last_n hdiv lo hi hn, ?_⟩
  intro hmax i _ f b out
  refine ⟨fun hbelow => ?_, fun hlo habove => ?_, ?_⟩
  · exact congrArg (checkedCode c) (freshSample_of_below hbelow)
  · exact congrArg (checkedCode c) (freshSample_of_above hlo ((lowestSegment_eq_none_iff ..).2 habove))
  · intro hlo k q hq hin hpassed x scaled z hnear htie
    have hk : k < segmentCount c := (List.getElem?_eq_some_iff.1 hq).1
    have hsegment : lowestSegment c f = some k := (lowestSegment_eq_some_iff ..).2 ⟨hk, hin, hpassed⟩
    have hcode : outputCode c (tuningVoltage c k f) = z - 1 := by
      rw [outputCode, tuningVoltage_eq_cubic hq]
      exact congrArg (· - 1) (roundAway_eq_of_nearest hnear htie)
    have hout : out = checkedCode c (.code (z - 1)) := by
      rw [← hcode]
      exact congrArg (checkedCode c) (freshSample_of_segment hlo hsegment)
    rw [hout]
    split
    · exact checkedCode_of_legal hmax ‹_›
    · exact checkedCode_of_illegal ‹_›

/-- Settles O44: swapped endpoints leave the ascending codes alone, and turn the direction round where they differ. -/
theorem swappedEndpointsReverseTheRamp : Obligations.SwappedEndpointsReverseTheRamp := by
  intro c fs fe n
  refine ⟨fun e => ?_, fun hne vs => ?_, fun heq => ?_, fun heq harith hmulti vs h => ?_⟩
  · rw [rampCodes_eq_error_iff, rampCodes_eq_error_iff, ascendingCodes_swap]
  · rw [rampCodes_eq_ok_iff, rampCodes_eq_ok_iff, ascendingCodes_swap]
    rcases lt_or_gt_of_ne hne with hlt | hlt
    · simp [descending, hlt, hlt.not_gt]
    · simp [descending, hlt, hlt.not_gt]
  · rw [rampCodes_eq_map, rampCodes_eq_map, ascendingCodes_swap]
    simp [descending, heq]
  · rw [rampCodes_eq_ok_iff] at h
    simp only [descending, heq, lt_self_iff_false, decide_false, Bool.false_eq_true, if_false] at h
    exact ascendingCodes_reverse_of_eq harith hmulti heq h

/-- Settles O45: the ramps of the table are written one after the other from the first element on. -/
theorem filledBufferIsTheRampTable : Obligations.FilledBufferIsTheRampTable := by
  intro s t q len h
  obtain ⟨codes, htable, hlen, hwritten, houtside, hframe⟩ := fillRamp_done_wrote h
  rw [hlen] at hwritten houtside
  refine ⟨codes, htable, hlen, fun i hi => ?_, houtside, hframe⟩
  rw [← hwritten i hi, Nat.zero_add]

/-- Settles O46: the generate unit writes the codes, and the response is all that follows. -/
theorem generateWritesTheRegion : Obligations.GenerateWritesTheRegion := by
  intro s n off fs fe vs hm hregion heven hfits hcodes
  have hlen : vs.length = n.toNat := (rampCodes_spec hcodes).1
  obtain ⟨t, hgen, hwritten, houtside, hframe⟩ := generate_of_codes hcodes hregion heven hfits
  rw [hlen] at hwritten houtside
  refine ⟨t.respond .ok [], execGenerate_of_done hm hregion hgen, hlen, hwritten, houtside, ?_⟩
  rw [hframe]
  rfl

/-- Settles O42: the endpoints are checked before any sample. -/
theorem badEndpointFailsTheRamp : Obligations.BadEndpointFailsTheRamp := by
  intro c fs fe n hbad
  have hends : endpointOk c fs = false ∨ endpointOk c fe = false := by
    simp only [endpointOk_eq_false_iff]
    tauto
  rw [rampCodes, if_neg]
  rcases hends with h | h
  · simp [h]
  · simp [h]

/-- Settles O47: two checks before the generate unit, which leaves the state alone where the ramp fails. -/
theorem generateErrorsChangeNothing : Obligations.GenerateErrorsChangeNothing := by
  intro s n off fs fe
  refine ⟨fun hm => ?_, fun hm hbeyond => ?_, fun hm hregion e he => ?_⟩
  · exact if_pos hm
  · exact (if_neg (not_not.2 hm)).trans (if_pos hbeyond)
  · refine (execGenerate_of_rangeError hm hregion he).trans ?_
    simp only [State.raise, State.respond, responseWords_nil]
    cases e <;> rfl

end Sys2Proof.Proofs

/-! SUPPORT. The statements on 42_buffer_manager.md: the records of allocations and releases stay balanced with what the
buffers hold (rules R210, R212, R214), and the block that a successful CONFIGURE leaves (rules R210, R211, R221, R226 to
R228). -/

namespace Sys2Proof.Machine

/-! ## The records of allocations and releases (rules R65, R212) -/

@[simp] theorem allocCount_append (b : BufId) (h evs : List Event) :
    allocCount b (h ++ evs) = allocCount b h + allocCount b evs := by
  induction h with
  | nil => simp [allocCount]
  | cons e h ih => cases e <;> simp [allocCount, ih, Nat.add_assoc]

@[simp] theorem freeCount_append (b : BufId) (h evs : List Event) :
    freeCount b (h ++ evs) = freeCount b h + freeCount b evs := by
  induction h with
  | nil => simp [freeCount]
  | cons e h ih => cases e <;> simp [freeCount, ih, Nat.add_assoc]

@[simp] theorem allocCount_releaseEvents (b : BufId) (s : State) : allocCount b (releaseEvents s) = 0 := by
  unfold releaseEvents
  split <;> split <;> rfl

@[simp] theorem freeCount_releaseEvents_out (s : State) :
    freeCount .out (releaseEvents s) = if s.outBuf.len = 0 then 0 else 1 := by
  unfold releaseEvents
  split <;> split <;> rfl

@[simp] theorem freeCount_releaseEvents_inp (s : State) :
    freeCount .inp (releaseEvents s) = if s.inBuf.len = 0 then 0 else 1 := by
  unfold releaseEvents
  split <;> split <;> rfl

/-- The record allocates no buffer and releases none. -/
def Event.LeavesBuffers (e : Event) : Prop :=
  ∀ b, allocCount b [e] = 0 ∧ freeCount b [e] = 0

/-- Records of anything but allocations and releases leave both counts alone. -/
theorem counts_of_leavesBuffers {evs : List Event} (h : ∀ e ∈ evs, e.LeavesBuffers) (b : BufId) :
    allocCount b evs = 0 ∧ freeCount b evs = 0 := by
  induction evs with
  | nil => exact ⟨rfl, rfl⟩
  | cons e evs ih =>
    obtain ⟨halloc, hfree⟩ := ih fun e he => h e (List.mem_cons_of_mem _ he)
    obtain ⟨halloc1, hfree1⟩ := h e List.mem_cons_self b
    rw [← List.singleton_append, allocCount_append, freeCount_append]
    omega

/-! ## Each operation keeps the balance (rules R210, R212, R214) -/

/-- A state with the same buffers whose history grew by records that leave the buffers alone. -/
theorem allocBalanced_of_leavesBuffers {s t : State} {evs : List Event} (hs : s.AllocBalanced)
    (hhist : t.history = s.history ++ evs) (hevs : ∀ e ∈ evs, e.LeavesBuffers) (hout : t.outBuf = s.outBuf)
    (hin : t.inBuf = s.inBuf) : t.AllocBalanced := by
  obtain ⟨hallocOut, hfreeOut⟩ := counts_of_leavesBuffers hevs .out
  obtain ⟨hallocIn, hfreeIn⟩ := counts_of_leavesBuffers hevs .inp
  simpa [State.AllocBalanced, hhist, hout, hin, hallocOut, hfreeOut, hallocIn, hfreeIn] using hs

/-- `release()` records one release for each buffer that it empties. -/
theorem release_keeps_allocBalanced {s : State} (hs : s.AllocBalanced) : s.release.AllocBalanced := by
  simpa [State.AllocBalanced] using hs

/-- Carving empty buffers records one allocation for each, and both hold elements then. -/
theorem carve_keeps_allocBalanced {s : State} {p : TimingProfile} (hs : s.AllocBalanced) (hout : s.outBuf.len = 0)
    (hin : s.inBuf.len = 0) (houtLen : 1 ≤ p.outLen) (hinLen : 1 ≤ p.inLen) : (s.carve p).AllocBalanced := by
  have houtHeld : heldLength p.outLen ≠ 0#32 := heldLength_ne_zero houtLen
  have hinHeld : heldLength p.inLen ≠ 0#32 := heldLength_ne_zero hinLen
  simpa [State.AllocBalanced, allocCount, freeCount, hout, hin, houtHeld, hinHeld] using hs

/-- CONFIGURE releases what it finds before it allocates, and releases again where its ramp fails (rules R221, R222). -/
theorem execConfigure_keeps_allocBalanced {d g : Half} {fs fe fr : F32} {s t : State} (hs : s.AllocBalanced)
    (h : execConfigure d g fs fe fr s = .next t) : t.AllocBalanced := by
  have hentry : s.configureEntry.AllocBalanced := by simpa [State.AllocBalanced] using hs
  have hreleased := release_keeps_allocBalanced hentry
  have hcarved {p : TimingProfile} (hp : resolve s.cfg d = .ok p) :
      (s.configureEntry.release.carve p).AllocBalanced := by
    obtain ⟨hout, _, _, _, hin, hhalf⟩ := resolve_lengths hp
    exact carve_keeps_allocBalanced hreleased (releasedBuf_len _) (releasedBuf_len _) hout (by omega)
  rcases execConfigure_cases h with ⟨_, _, rfl⟩ | rfl | ⟨p, m, _, hp, _, rfl⟩ | ⟨p, m, hp, _, _, rfl⟩
  · exact hreleased
  · exact release_keeps_allocBalanced hreleased
  · exact release_keeps_allocBalanced (s := { s.configureEntry.release.carve p with buf := m }) (hcarved hp)
  · exact allocBalanced_of_leavesBuffers (evs := [Event.gain g]) (hcarved hp) rfl
      (List.forall_mem_singleton.2 fun _ => ⟨rfl, rfl⟩) rfl rfl

theorem exec_keeps_allocBalanced {i : Instr} {s t : State} (hs : s.AllocBalanced) (h : exec i s = .next t) :
    t.AllocBalanced := by
  cases i with
  | configure => exact execConfigure_keeps_allocBalanced hs h
  | start => rcases execStart_cases h with ⟨_, rfl⟩ | ⟨_, rfl⟩ <;> exact hs
  | stop =>
    cases h
    exact hs
  | _ =>
    obtain ⟨_, _, _, _, _, _, _, rfl, hframes, _⟩ := exec_frame h rfl nofun nofun
    refine allocBalanced_of_leavesBuffers hs rfl (fun e he => ?_) rfl rfl
    obtain ⟨F, rfl⟩ := hframes e he
    exact fun _ => ⟨rfl, rfl⟩

theorem takeTurn_keeps_allocBalanced {s t : State} {tn : Turn} (hs : s.AllocBalanced) (h : takeTurn tn s = .next t) :
    t.AllocBalanced := by
  rcases takeTurn_cases h with rfl | ⟨c, r, rfl⟩ | ⟨i, c, f, _, hexec⟩ | ⟨adc, _, _, htick⟩ | ⟨w, _, _, rfl⟩
    | ⟨b, _, rfl⟩
  · exact hs
  · exact hs
  · exact exec_keeps_allocBalanced (s := { s with cmd := c, frameReq := f }) hs hexec
  · obtain ⟨code, _, _, _, _, _, rfl, _⟩ := tickStep_frame htick
    exact allocBalanced_of_leavesBuffers (evs := [Event.odOut code]) hs rfl
      (List.forall_mem_singleton.2 fun _ => ⟨rfl, rfl⟩) rfl rfl
  · exact allocBalanced_of_leavesBuffers hs (s.takeInterrupt_history w)
      (List.forall_mem_singleton.2 fun _ => ⟨rfl, rfl⟩) rfl rfl
  · exact ⟨rfl, rfl⟩

/-! ## The bytes of the storage handed out (rules R84, R211) -/

/-- Storage that is handed out holds a free byte at each of its addresses. -/
theorem carve_byteAt_of_lt (s : State) {p : TimingProfile} {a : Nat} (ha : a < bytesNeeded p) :
    (s.carve p).byteAt .buf a = Config.allocatedByte s.draws a := by
  have hread := Memory.byteAt_write s.buf (Config.unwrittenByte .buf s.resets) 0
    (bs := (List.range (bytesNeeded p)).map (Config.allocatedByte s.draws)) (i := a) (by simpa using ha)
  simpa [State.byteAt] using hread

/-- No byte past the storage that is handed out changes. -/
theorem carve_byteAt_of_ge (s : State) {p : TimingProfile} {a : Nat} (ha : bytesNeeded p ≤ a) :
    (s.carve p).byteAt .buf a = s.byteAt .buf a :=
  Memory.byteAt_write_of_not _ _ (.inr (by simpa using ha))

/-! ## The filling of the RampTable, from its codes (rule R190) -/

/-- A ramp fails with the sub-cause of its codes. -/
theorem generate_rangeError_codes {s t : State} {len : Nat} {fs fe : F32} {n off : Nat} {e : RangeSub}
    (h : generate s len fs fe n off = .ok (.rangeError e t)) : rampCodes s.cfg fs fe n = .error e := by
  rcases generate_spec h with ⟨_, he, hr⟩ | ⟨_, _, _, _, hr⟩
  · cases hr
    exact he
  · cases hr

/-- The filling of the output buffer fails with the sub-cause of the RampTable. -/
theorem fillRamp_rangeError_rampTable {s t : State} {q : Request} {len : Nat} {e : RangeSub}
    (h : fillRamp s q len = .ok (.rangeError e t)) : rampTable s.cfg q len = .error e := by
  unfold fillRamp at h
  unfold rampTable
  split at h
  · rename_i hsaw
    rw [if_pos hsaw]
    exact generate_rangeError_codes h
  · rename_i htri
    rw [if_neg htri]
    split at h
    · rename_i u hup
      obtain ⟨up, hupCodes, _, hwrote⟩ := generate_done_wrote hup
      have hcfg : u.cfg = s.cfg := by rw [hwrote.frame]
      have hdown := generate_rangeError_codes h
      rw [hcfg] at hdown
      rw [hupCodes, hdown]
    · rename_i hup
      cases h
      rw [generate_rangeError_codes hup]
    · cases h

/-- A RampTable that has all its codes is written to an output buffer that starts the memory and fits it. -/
theorem fillRamp_of_rampTable {s : State} {q : Request} {len : Nat} {codes : List Half}
    (hcodes : rampTable s.cfg q len = .ok codes) (hbase : s.outBuf.base = 0) (hfits : 2 * len ≤ s.cfg.bufCapacity) :
    codes.length = len ∧ ∃ t, fillRamp s q len = .ok (.done t) ∧ WroteElements s t s.outBuf 0 codes := by
  obtain ⟨r, hfill⟩ := fillRamp_answers q hbase hfits
  cases r with
  | rangeError e t =>
    rw [fillRamp_rangeError_rampTable hfill] at hcodes
    cases hcodes
  | done t =>
    obtain ⟨codes', hcodes', hlen, hwrote⟩ := fillRamp_done_wrote hfill
    rw [hcodes] at hcodes'
    cases hcodes'
    exact ⟨hlen, t, hfill, hwrote⟩

/-! ## The block that a CONFIGURE binds (rules R221, R226 to R228) -/

/-- Step 1 of CONFIGURE in one record: the enables of a running block go off, and a pending pulse is discarded
(rules R221, R229, R235). -/
theorem configureEntry_eq (s : State) :
    s.configureEntry = { s with
      mode := stoppedMode s.mode
      tmEn := if s.mode = .running then false else s.tmEn
      odEn := if s.mode = .running then false else s.odEn
      odOutEn := if s.mode = .running then false else s.odOutEn
      smpEn := if s.mode = .running then false else s.smpEn
      lastEmitted := s.seq } := by
  unfold State.configureEntry
  cases hm : s.mode <;> simp [State.stopBody, stoppedMode, hm]

/-- 32 bits hold every field of the profile. -/
structure TimingProfile.HeldIn32 (p : TimingProfile) : Prop where
  outLen : p.outLen < 4294967296
  tsf : p.tsf < 4294967296
  holdCount : p.holdCount < 4294967296
  spc : p.spc < 4294967296
  inLen : p.inLen < 4294967296
  chDelay : p.chDelay < 4294967296
  outInterval : p.outInterval < 4294967296
  inBase : 2 * p.outLen < 4294967296

/-- An accepted profile of at most 2^32 bytes, under a hardware counter of at most 32 bits (rules R38, R166, R171). -/
theorem resolve_heldIn32 {c : Config} {d : Half} {p : TimingProfile} (hp : resolve c d = .ok p)
    (hbytes : bytesNeeded p ≤ 4294967296) (hwidth : c.counterWidth ≤ 32) : p.HeldIn32 := by
  obtain ⟨_, _, hle, _, hin, hhalf⟩ := resolve_lengths hp
  obtain ⟨_, _, _, _, _, _, _, _, hcounts, _, _⟩ := resolve_spec hp
  obtain ⟨hhold, hspc, hdelay, hinterval⟩ := le_counterMax_of_fits hcounts
  have hmax : 2 ^ c.counterWidth ≤ 4294967296 := Nat.pow_le_pow_right (n := 2) (by omega) hwidth
  unfold bytesNeeded at hbytes
  constructor <;> omega

/-- A CONFIGURE whose every sub-step succeeds binds what it has allocated and filled. -/
theorem execConfigure_of_filled {s u : State} {d g : Half} {fs fe fr : F32} {p : TimingProfile}
    (hcal : s.calFail = false) (hp : resolve s.cfg d = .ok p) (hfits : bytesNeeded p ≤ s.cfg.bufCapacity)
    (hfill : fillRamp (s.configureEntry.release.carve p) ⟨true, d, g, fs, fe, fr⟩ p.outLen = .ok (.done u)) :
    execConfigure d g fs fe fr s
      = .next (((u.programDescriptors p).bind ⟨true, d, g, fs, fe, fr⟩ p).respond .ok []) := by
  have halloc : allocate s.configureEntry p = .ok (s.configureEntry.release.carve p) :=
    if_neg (by simpa using hfits)
  simp [execConfigure, configureChecked, hcal, hp, configureAllocate, halloc, configureRamp, hfill]

end Sys2Proof.Machine

namespace Sys2Proof.Proofs

open Sys2Proof.Machine

/-- Settles O26: each turn moves the records and the buffers together, and only CONFIGURE and a reset move them at all. -/
theorem stepKeepsAllocationsBalanced : Obligations.StepKeepsAllocationsBalanced := by
  intro s t _ hs h
  obtain ⟨_, ts, dr, hturn⟩ := step_next h
  exact takeTurn_keeps_allocBalanced (s := { s with turns := ts, draws := dr }) hs hturn

/-- Settles O48: the buffers are carved, the RampTable is written to the first, and the rest is bound. -/
theorem configureBindsTheRequest : Obligations.ConfigureBindsTheRequest := by
  intro s d g fs fe fr p codes hcal hp hfits hbytes hwidth hcodes
  obtain ⟨hout, htsf, hhold, hspc, hin, hdelay, hinterval, hbase⟩ := resolve_heldIn32 hp hbytes hwidth
  obtain ⟨hlen, u, hfill, hwritten, houtside, hframe⟩ := fillRamp_of_rampTable
    (s := s.configureEntry.release.carve p) (by simpa using hcodes) rfl
    (by simp only [State.carve_cfg, State.release_cfg, State.configureEntry_cfg]; omega)
  have hstart : elementAddr (s.configureEntry.release.carve p).outBuf 0 = 0 := rfl
  rw [hlen] at hwritten houtside
  rw [hstart] at houtside
  refine ⟨_, execConfigure_of_filled hcal hp hfits hfill, hlen, fun i hi => ?_, fun a hlo hhi => ?_, fun a ha => ?_, ?_⟩
  · have hbuf : u.outBuf = (s.configureEntry.release.carve p).outBuf := by rw [hframe]
    rw [← hwritten i hi, Nat.zero_add]
    exact congrArg (fun b => elementAt u b i) hbuf
  · refine (houtside a (.inr (by omega))).trans ((carve_byteAt_of_lt _ hhi).trans ?_)
    simp
  · refine (houtside a (.inr (by omega))).trans ((carve_byteAt_of_ge _ ha).trans ?_)
    exact byteAt_congr (by simp) (by simp) a
  · rw [hframe]
    simp only [configureEntry_eq, State.respond, responseWords_ok_nil, State.bind, State.programDescriptors,
      boundProfile, State.carve, heldLength_of_lt hout, heldLength_of_lt htsf, heldLength_of_lt hin,
      heldLength_of_lt hbase, heldIn32_of_lt hhold, heldIn32_of_lt hspc, heldIn32_of_lt hdelay,
      heldIn32_of_lt hinterval]
    simp [State.release, releaseEvents]

end Sys2Proof.Proofs

/-! SUPPORT. The statements on 43_synchronizer.md: which instruction moves `STATE` (rule R220), how a CONFIGURE that fails
rolls back (rules R221, R222), START and STOP (rules R230, R235, R236), the tick (rules R250 to R252), and the interrupt
latch with its handler (rules R245 to R248). -/

namespace Sys2Proof.Machine

/-! ## The transitions of `STATE` (rule R220) -/

/-- `stop_body()` takes a running block to `Configured` and leaves `STATE` otherwise (rule R235). -/
theorem stoppedMode_eq_ite (m : Mode) : stoppedMode m = if m = .running then .configured else m := by
  cases m <;> rfl

/-- An error's response is its header word, and that names an error. -/
theorem resp_raise_error {st : Status} (hst : st ≠ .ok) (s : State) :
    ∃ r0, opField r0 ≠ 0 ∧ (s.raise st).resp = s.resp ++ [[r0]] := by
  refine ⟨responseHeader st.code st.sub 0, ?_, by rw [State.raise_resp, responseWords_nil]⟩
  rw [opField_responseHeader]
  exact fun hcode => hst (status_code_eq_zero.1 hcode)

/-- CONFIGURE ends in `Configured` with `OK`, or in `Idle` with an error (rules R220, R221). -/
theorem execConfigure_mode_resp {d g : Half} {fs fe fr : F32} {s t : State}
    (h : execConfigure d g fs fe fr s = .next t) :
    (t.mode = .configured ∧ t.resp = s.resp ++ [[0x00000000#32]])
      ∨ (t.mode = .idle ∧ ∃ r0, opField r0 ≠ 0 ∧ t.resp = s.resp ++ [[r0]]) := by
  have hfailed {u : State} {st : Status} (hu : u.resp = s.resp) (hst : st ≠ .ok) :
      (u.enterIdle.raise st).mode = .idle
        ∧ ∃ r0, opField r0 ≠ 0 ∧ (u.enterIdle.raise st).resp = s.resp ++ [[r0]] := by
    have hresp := resp_raise_error hst u.enterIdle
    rw [State.enterIdle_resp, hu] at hresp
    exact ⟨rfl, hresp⟩
  rcases execConfigure_cases h with ⟨st, hst, rfl⟩ | rfl | ⟨p, m, e, _, _, rfl⟩ | ⟨p, m, _, _, _, rfl⟩
  · exact .inr (hfailed (by simp) hst)
  · exact .inr (hfailed (by simp) nofun)
  · exact .inr (hfailed (by simp) nofun)
  · exact .inl ⟨rfl, by simp⟩

/-! ## The rollback of a failed CONFIGURE (rules R212, R221, R222) -/

/-- A second `release()` finds both buffers empty. -/
theorem release_release (s : State) : s.release.release = s.release := by
  have hevents : releaseEvents s.release = [] := by simp [releaseEvents]
  have hbuf (b : SampleBuf) : releasedBuf (releasedBuf b) = releasedBuf b := if_pos (releasedBuf_len b)
  rw [State.release, hevents, State.release_outBuf, State.release_inBuf, hbuf, hbuf, List.append_nil]
  rfl

/-- `enter_idle()` releases the buffers itself, so it does no more after a `release()`. -/
theorem enterIdle_release (s : State) : s.release.enterIdle = s.enterIdle := by
  rw [State.enterIdle, release_release]
  rfl

/-- A CONFIGURE that fails before its ramp ends in the rolled-back block, the buffers released once. -/
theorem configureEntry_enterIdle_raise (s : State) (st : Status) :
    s.configureEntry.enterIdle.raise st = s.rolledBack (releaseEvents s) (responseHeader st.code st.sub 0) := by
  rw [configureEntry_eq]
  rfl

section FailedConfigure

variable {s : State} {d : Half} (g : Half) (fs fe fr : F32)

/-- A block whose calibration failed refuses CONFIGURE before anything else (rules R223, R306). -/
theorem execConfigure_of_calFail (hcal : s.calFail = true) :
    execConfigure d g fs fe fr s = .next (s.configureEntry.enterIdle.raise .hardwareError) := by
  rw [execConfigure, configureChecked, State.configureEntry_calFail, if_pos hcal, configureFails]

/-- A CONFIGURE whose duration the resolver rejects (rule R221). -/
theorem execConfigure_of_rejected (hcal : s.calFail = false) {e : ConfigSub} (he : resolve s.cfg d = .error e) :
    execConfigure d g fs fe fr s = .next (s.configureEntry.enterIdle.raise (.configError e)) := by
  simp [execConfigure, configureChecked, hcal, he, configureFails]

/-- A CONFIGURE whose buffers do not fit the memory (rules R213, R221). -/
theorem execConfigure_of_no_room (hcal : s.calFail = false) {p : TimingProfile} (hp : resolve s.cfg d = .ok p)
    (hroom : s.cfg.bufCapacity < bytesNeeded p) :
    execConfigure d g fs fe fr s = .next (s.configureEntry.enterIdle.raise .allocationError) := by
  have halloc : allocate s.configureEntry p = .error s.configureEntry.release := if_pos (by simpa using hroom)
  simp [execConfigure, configureChecked, hcal, hp, configureAllocate, halloc, configureFails, enterIdle_release]

/-- A CONFIGURE whose ramp fails, once its buffers are allocated (rules R190, R221). -/
theorem execConfigure_of_rangeError (hcal : s.calFail = false) {p : TimingProfile} (hp : resolve s.cfg d = .ok p)
    (hfits : bytesNeeded p ≤ s.cfg.bufCapacity) {e : RangeSub} {u : State}
    (hfill : fillRamp (s.configureEntry.release.carve p) ⟨true, d, g, fs, fe, fr⟩ p.outLen = .ok (.rangeError e u)) :
    execConfigure d g fs fe fr s = .next (u.enterIdle.raise (.rangeError e)) := by
  have halloc : allocate s.configureEntry p = .ok (s.configureEntry.release.carve p) :=
    if_neg (by simpa using hfits)
  simp [execConfigure, configureChecked, hcal, hp, configureAllocate, halloc, configureRamp, hfill, configureFails]

end FailedConfigure

/-! ## A ramp that fails in storage handed out (rules R188, R190) -/

/-- A ramp that fails leaves the state as it was. -/
theorem generate_rangeError_state {s t : State} {len : Nat} {fs fe : F32} {n off : Nat} {e : RangeSub}
    (h : generate s len fs fe n off = .ok (.rangeError e t)) : t = s := by
  rcases generate_spec h with ⟨_, _, hr⟩ | ⟨_, _, _, _, hr⟩
  · cases hr
    rfl
  · cases hr

/-- A filling of the output buffer that fails has written at most the first ramp of a triangle, inside the buffer. -/
theorem fillRamp_rangeError_outside {s t : State} {q : Request} {len : Nat} {e : RangeSub}
    (h : fillRamp s q len = .ok (.rangeError e t)) {a : Nat} (ha : elementAddr s.outBuf 0 + 2 * len ≤ a) :
    t.byteAt .buf a = s.byteAt .buf a := by
  unfold fillRamp at h
  split at h
  · rw [generate_rangeError_state h]
  · split at h
    · rename_i u hup
      obtain ⟨up, _, hlen, hwrote⟩ := generate_done_wrote hup
      rw [generate_rangeError_state h]
      exact hwrote.outside a (.inr (by omega))
    · rename_i hup
      cases h
      rw [generate_rangeError_state hup]
    · cases h

/-- A RampTable that fails makes the filling of an output buffer that starts the memory and fits it fail the same way. -/
theorem fillRamp_of_rampTable_error {s : State} {q : Request} {len : Nat} {e : RangeSub}
    (he : rampTable s.cfg q len = .error e) (hbase : s.outBuf.base = 0) (hfits : 2 * len ≤ s.cfg.bufCapacity) :
    ∃ t, fillRamp s q len = .ok (.rangeError e t) := by
  obtain ⟨r, hfill⟩ := fillRamp_answers q hbase hfits
  cases r with
  | done t =>
    obtain ⟨codes, hcodes, _⟩ := fillRamp_done_wrote hfill
    rw [he] at hcodes
    cases hcodes
  | rangeError e' t =>
    have he' := fillRamp_rangeError_rampTable hfill
    rw [he] at he'
    cases he'
    exact ⟨t, hfill⟩

/-- The rollback after the ramp: both buffers of an accepted profile hold elements, so each is released again. -/
theorem carved_enterIdle_raise (s : State) {p : TimingProfile} (m : Memory) (st : Status)
    (hout : heldLength p.outLen ≠ 0) (hin : heldLength p.inLen ≠ 0) :
    (State.enterIdle { s.configureEntry.release.carve p with buf := m }).raise st
      = { s.rolledBack (releaseEvents s ++ [Event.alloc .out 0 (heldLength p.outLen),
            Event.alloc .inp (heldLength (2 * p.outLen)) (heldLength p.inLen), Event.free .out, Event.free .inp])
            (responseHeader st.code st.sub 0) with
          outBuf := ⟨0, 0⟩, inBuf := ⟨0, 0⟩, buf := m, draws := s.draws + 1 } := by
  have hevents : releaseEvents { s.configureEntry.release.carve p with buf := m }
      = [Event.free .out, Event.free .inp] := by
    simp only [releaseEvents, State.carve_outBuf, State.carve_inBuf, hout, hin, if_false]
    rfl
  have hbuf (base len : Word) (hlen : len ≠ 0) : releasedBuf ⟨base, len⟩ = ⟨0, 0⟩ := if_neg hlen
  rw [State.enterIdle, State.release, hevents]
  simp only [State.carve_outBuf, State.carve_inBuf, hbuf _ _ hout, hbuf _ _ hin]
  rw [configureEntry_eq]
  simp [State.raise, State.respond, responseWords_nil, State.rolledBack, State.carve, State.release, releaseEvents,
    Request.none, BoundProfile.none, TimingDesc.zero, BufferDesc.zero]

/-! ## STOP (rules R235, R236) -/

/-- A stopped block has nothing to stop. -/
theorem stopBody_of_stopped {s : State} (hen : s.EnablesAgree) (hm : s.mode ≠ .running) : s.stopBody = s := by
  obtain ⟨htm, hod, hout, hsmp⟩ := hen
  simp only [hm, decide_false] at htm hod hout hsmp
  rw [State.stopBody, stoppedMode_eq_ite, if_neg hm]
  cases s
  cases htm
  cases hod
  cases hout
  cases hsmp
  rfl

/-! ## The tick (rules R250 to R252) -/

/-- Everything a tick does: the code at the output cursor is emitted, and either the sampler period is complete and its
sample is written, or the phase goes on. -/
theorem tickStep_spec {s t : State} {adc : Half} (h : tickStep s adc = .ok t) :
    (s.tmPhase + 1 = s.tmDesc.tsf ∧ 0 < s.smpDesc.length.toNat
      ∧ t = { s with
          odLast := some (elementAt s s.outBuf s.odIdx.toNat)
          odIdx := BitVec.ofNat 32 ((s.odIdx.toNat + 1) % s.odDesc.length.toNat)
          history := s.history ++ [Event.odOut (elementAt s s.outBuf s.odIdx.toNat)]
          tmPhase := 0
          smpIdx := BitVec.ofNat 32 ((s.smpIdx.toNat + 1) % s.smpDesc.length.toNat)
          irq := s.irq || decide ((s.smpIdx.toNat + 1) % s.smpDesc.length.toNat % (s.smpDesc.length.toNat / 2) = 0)
          buf := Memory.write s.buf (elementAddr s.inBuf s.smpIdx.toNat) (bytesOfHalves [adc]) })
      ∨ (s.tmPhase + 1 ≠ s.tmDesc.tsf
        ∧ t = { s with
          odLast := some (elementAt s s.outBuf s.odIdx.toNat)
          odIdx := BitVec.ofNat 32 ((s.odIdx.toNat + 1) % s.odDesc.length.toNat)
          history := s.history ++ [Event.odOut (elementAt s s.outBuf s.odIdx.toNat)]
          tmPhase := s.tmPhase + 1 }) := by
  unfold tickStep at h
  split at h
  · cases h
  · rename_i ho
    obtain ⟨_, _, rfl⟩ := tickOutput_spec ho
    split at h
    · rename_i hcomplete
      obtain ⟨_, _, _, hpos, _, rfl⟩ := tickSample_spec h
      exact .inl ⟨hcomplete, hpos, rfl⟩
    · rename_i hmore
      cases h
      exact .inr ⟨hmore, rfl⟩

/-- The phase completes its sampler period as a word iff it does as a number (rules R49, R250). -/
theorem succ_eq_iff_toNat {a b : Word} (h : a.toNat < b.toNat) : a + 1 = b ↔ a.toNat + 1 = b.toNat := by
  rw [← BitVec.toNat_inj, toNat_succ_of_lt h]

theorem takeTurn_tick_of_ok {s t : State} {adc : Half} (hm : s.mode = .running) (h : tickStep s adc = .ok t) :
    takeTurn (.tick adc) s = .next t := by
  simp [takeTurn, tickTurn, hm, h]

/-! ## The interrupt latch (rules R245, R248, R251, R315) -/

/-- A tick leaves the latch alone, or sets it where it completes a half of the input buffer. -/
theorem tickStep_irq {s t : State} {adc : Half} (h : tickStep s adc = .ok t) :
    t.irq = s.irq ∨ (t.irq = true ∧ t.tmPhase = 0 ∧ t.smpIdx.toNat % (s.smpDesc.length.toNat / 2) = 0) := by
  rcases tickStep_spec h with ⟨_, hpos, rfl⟩ | ⟨_, rfl⟩
  · have hcursor := toNat_ofNat_mod (s.smpIdx.toNat + 1) hpos
    by_cases hhalf : (s.smpIdx.toNat + 1) % s.smpDesc.length.toNat % (s.smpDesc.length.toNat / 2) = 0
    · exact .inr ⟨by simp [hhalf], rfl, by rw [hcursor, hhalf]⟩
    · exact .inl (by simp [hhalf])
  · exact .inl rfl

/-- Everything a turn can do to the latch. -/
theorem takeTurn_irq {s t : State} {tn : Turn} (h : takeTurn tn s = .next t) :
    t.irq = s.irq
      ∨ (t.irq = true ∧ (∃ adc, tn = .tick adc) ∧ s.mode = .running ∧ t.tmPhase = 0
        ∧ t.smpIdx.toNat % (s.smpDesc.length.toNat / 2) = 0)
      ∨ (t.irq = false ∧ ((∃ w, tn = .handler w) ∨ (∃ b, tn = .reset b))) := by
  rcases takeTurn_cases h with rfl | ⟨c, r, rfl⟩ | ⟨i, c, f, _, hexec⟩ | ⟨adc, htn, hm, htick⟩ | ⟨w, htn, _, rfl⟩
    | ⟨b, htn, rfl⟩
  · exact .inl rfl
  · exact .inl rfl
  · exact .inl (exec_keepsPulseRecord hexec).irq
  · rcases tickStep_irq htick with hsame | ⟨hset, hphase, hhalf⟩
    · exact .inl hsame
    · exact .inr (.inl ⟨hset, ⟨adc, htn⟩, hm, hphase, hhalf⟩)
  · exact .inr (.inr ⟨rfl, .inl ⟨w, htn⟩⟩)
  · exact .inr (.inr ⟨rfl, .inr ⟨b, htn⟩⟩)

/-! ## Runs of the handler (rule R247) -/

theorem handlerRuns_append (l k : List Word) (s : State) :
    handlerRuns (l ++ k) s = handlerRuns k (handlerRuns l s) := by
  induction l generalizing s with
  | nil => rfl
  | cons ts l ih => exact ih (s.takeInterrupt ts)

@[simp] theorem handlerRuns_txEn (l : List Word) (s : State) : (handlerRuns l s).txEn = s.txEn := by
  induction l generalizing s with
  | nil => rfl
  | cons ts l ih => exact ih (s.takeInterrupt ts)

/-- Each run raises `SEQ` by one, modulo 2^32. -/
@[simp] theorem handlerRuns_seq (l : List Word) (s : State) :
    (handlerRuns l s).seq = s.seq + BitVec.ofNat 32 l.length := by
  induction l generalizing s with
  | nil => simp [handlerRuns]
  | cons ts l ih =>
    rw [handlerRuns, ih, State.takeInterrupt_seq, List.length_cons, Nat.add_comm l.length, BitVec.ofNat_add,
      BitVec.add_assoc]
    rfl

/-- The successor of a sequence number has the other parity. -/
theorem getLsbD_zero_succ (w : Word) : (w + 1).getLsbD 0 = !w.getLsbD 0 := by
  have hbit (v : Word) : v.getLsbD 0 = decide (v.toNat % 2 = 1) := Nat.testBit_zero v.toNat
  rw [hbit, hbit, ← decide_not, decide_eq_decide]
  bv_omega

end Sys2Proof.Machine

namespace Sys2Proof.Proofs

open Sys2Proof.Machine

/-- Settles O14: CONFIGURE, START and STOP by what each can do; no other instruction has `STATE` in its frame. -/
theorem stateTransitions : Obligations.StateTransitions := by
  intro i s t h
  cases i with
  | configure => exact execConfigure_mode_resp h
  | start =>
    rcases execStart_cases h with ⟨hm, rfl⟩ | ⟨hm, rfl⟩
    · simp only [if_neg hm]
      exact ⟨rfl, rfl⟩
    · simp only [if_pos hm]
      exact ⟨rfl, by simp⟩
  | stop =>
    cases h
    exact ⟨stoppedMode_eq_ite s.mode, by simp⟩
  | _ =>
    obtain ⟨_, _, _, _, _, _, _, rfl, _⟩ := exec_frame h rfl nofun nofun
    rfl

/-- Settles O19: the tick sets the latch, the handler and reset clear it, and no instruction touches it. -/
theorem latchRisesAndFallsByRule : Obligations.LatchRisesAndFallsByRule := by
  intro s t h
  obtain ⟨_, ts, dr, hturn⟩ := step_next h
  rcases takeTurn_irq hturn with hsame | ⟨hset, htick⟩ | ⟨hclear, hby⟩
  · rw [hsame]
    exact ⟨fun h0 h1 => Bool.noConfusion (h0.symm.trans h1), fun h1 h0 => Bool.noConfusion (h1.symm.trans h0)⟩
  · exact ⟨fun _ _ => htick, fun _ h0 => Bool.noConfusion (hset.symm.trans h0)⟩
  · exact ⟨fun _ h1 => Bool.noConfusion (hclear.symm.trans h1), fun _ _ => hby⟩

/-- Settles O49: each early failure rolls back the block that step 1 of CONFIGURE leaves. -/
theorem configureRollsBackBeforeTheRamp : Obligations.ConfigureRollsBackBeforeTheRamp := by
  intro s d g fs fe fr
  refine ⟨fun hcal => ?_, fun hcal e he => ?_, fun hcal p hp hroom => ?_⟩
  · exact (execConfigure_of_calFail g fs fe fr hcal).trans (congrArg _ (configureEntry_enterIdle_raise s _))
  · refine (execConfigure_of_rejected g fs fe fr hcal he).trans ?_
    rw [configureEntry_enterIdle_raise]
    cases e <;> rfl
  · exact (execConfigure_of_no_room g fs fe fr hcal hp hroom).trans (congrArg _ (configureEntry_enterIdle_raise s _))

/-- Settles O50: the storage is carved, the ramp fails inside it, and the rollback releases it again. -/
theorem configureRollsBackAfterTheRamp : Obligations.ConfigureRollsBackAfterTheRamp := by
  intro s d g fs fe fr p e hcal hp hfits hbytes he
  obtain ⟨hout1, _, _, _, hin, hhalf⟩ := resolve_lengths hp
  obtain ⟨u, hfill⟩ := fillRamp_of_rampTable_error (s := s.configureEntry.release.carve p) (by simpa using he) rfl
    (by simp only [State.carve_cfg, State.release_cfg, State.configureEntry_cfg]; omega)
  have hframe : u = { s.configureEntry.release.carve p with buf := u.buf } := (fillRamp_frame hfill).1
  have hout : heldLength p.outLen = BitVec.ofNat 32 p.outLen := heldLength_of_lt (by omega)
  have hinLen : heldLength p.inLen = BitVec.ofNat 32 p.inLen := heldLength_of_lt (by omega)
  have hbase : heldLength (2 * p.outLen) = BitVec.ofNat 32 (2 * p.outLen) := heldLength_of_lt (by omega)
  have hrolled := carved_enterIdle_raise s (p := p) u.buf (.rangeError e) (heldLength_ne_zero hout1)
    (heldLength_ne_zero (by omega))
  rw [← hframe, hout, hinLen, hbase] at hrolled
  refine ⟨_, execConfigure_of_rangeError g fs fe fr hcal hp hfits hfill, fun a ha => ?_, ?_⟩
  · have hstart : elementAddr (s.configureEntry.release.carve p).outBuf 0 = 0 := rfl
    have hcarved := carve_byteAt_of_ge s.configureEntry.release ha
    have hkept := fillRamp_rangeError_outside hfill (a := a) (by rw [hstart]; omega)
    exact (hkept.trans hcarved).trans (byteAt_congr (by simp) (by simp) a)
  · rw [hrolled]
    cases e <;> rfl

/-- Settles O57: the tick of a running block of the invariant answers, and its cursors run over the bound lengths. -/
theorem tickMovesBothCursors : Obligations.TickMovesBothCursors := by
  intro s adc ts hs hm ht code sampled next at_
  obtain ⟨t, htick⟩ := tickStep_answers (s := { s with turns := ts }) adc hs hm
  obtain ⟨hcfg, _, _, _, hbound, hcursors⟩ := hs
  obtain ⟨_, _, _, _, ⟨htmDesc, hodDesc, hsmpDesc⟩, _⟩ := hbound (by simp [hm])
  obtain ⟨_, _, hphase⟩ := hcursors hm
  have hstep : step s = .next t := (step_of_turns hcfg ht).trans (takeTurn_tick_of_ok hm htick)
  have hsampled : s.tmPhase + 1 = s.tmDesc.tsf ↔ sampled := by
    rw [htmDesc]
    exact succ_eq_iff_toNat hphase
  have hout : s.odDesc.length = s.prof.outLen := by rw [hodDesc]
  have hin : s.smpDesc.length = s.prof.inLen := by rw [hsmpDesc]
  have hcode : elementAt { s with turns := ts } s.outBuf s.odIdx.toNat = code := rfl
  refine ⟨t, hstep, ?_⟩
  rcases tickStep_spec htick with ⟨hcomplete, _, rfl⟩ | ⟨hmore, rfl⟩
  · have hnow : sampled := hsampled.1 hcomplete
    refine ⟨fun _ => elementAt_write s s.inBuf s.smpIdx.toNat (vs := [adc]) (j := 0) (by simp), fun a ha => ?_, ?_⟩
    · exact Memory.byteAt_write_of_not _ _ (ha hnow)
    · simp [hnow, hout, hin, hcode, next]
  · have hnot : ¬ sampled := fun h => hmore (hsampled.2 h)
    refine ⟨fun h => absurd h hnot, fun _ _ => rfl, ?_⟩
    simp [hnot, hout, hcode]

/-- Settles O59: by induction over the runs `SEQ` counts them, and the parity is its lowest bit while `TX_EN` is set. -/
theorem handlerRunsCountAndAlternate : Obligations.HandlerRunsCountAndAlternate := by
  intro l s
  refine ⟨handlerRuns_seq l s, fun htx a b => ⟨?_, ?_⟩, fun htx => ⟨?_, fun hne => ?_⟩⟩
  · simp [htx, BitVec.ofNat_add, BitVec.add_assoc]
  · rw [handlerRuns_append, handlerRuns_append]
    simp only [handlerRuns, State.takeInterrupt_parity, State.takeInterrupt_txEn, State.takeInterrupt_seq,
      handlerRuns_txEn, htx, Bool.true_and]
    exact getLsbD_zero_succ _
  · simp [State.trigOut, htx]
  · obtain ⟨k, a, rfl⟩ := (List.eq_nil_or_concat' l).resolve_left hne
    rw [handlerRuns_append]
    simp [handlerRuns, htx]

/-- Settles O31: the first check of START. -/
theorem startNeedsConfigured : Obligations.StartNeedsConfigured := by
  intro s hm
  exact if_pos hm

/-- Settles O32: `stop_body()` and the `OK` response; `OD_OUT` and `TRIG_OUT` are computed from the enables. -/
theorem stopDisablesTheSubsystems : Obligations.StopDisablesTheSubsystems := by
  intro s
  refine ⟨s.stopBody.respond .ok [], rfl, ?_, rfl, rfl⟩
  rw [State.respond, responseWords_ok_nil, State.stopBody, stoppedMode_eq_ite]

/-- Settles O33: `stop_body()` leaves a stopped block as it is. -/
theorem stopIsIdempotent : Obligations.StopIsIdempotent := by
  intro s hen hm
  rw [exec, execStop, stopBody_of_stopped hen hm, State.respond, responseWords_ok_nil]

/-- Settles O58: the scheduled turn is the handler's. -/
theorem handlerWritesThePulseRecord : Obligations.HandlerWritesThePulseRecord := by
  intro s w ts hc ht
  rw [step_of_turns hc ht, takeTurn, handlerTurn]
  cases s.irq <;> rfl

end Sys2Proof.Proofs

/-! SUPPORT. The statements on who sends in 44_message_framer.md: which instructions and turns can add a frame
to the history (rules R65, R273, R274), and the pulses that EMIT_PULSE refuses (rules R285, R312). -/

namespace Sys2Proof.Machine

/-! ## The frames of the history (rule R65) -/

@[simp] theorem framesOf_append (h evs : List Event) : framesOf (h ++ evs) = framesOf h ++ framesOf evs := by
  induction h with
  | nil => rfl
  | cons e h ih => cases e <;> simp [framesOf, ih]

@[simp] theorem framesOf_releaseEvents (s : State) : framesOf (releaseEvents s) = [] := by
  unfold releaseEvents
  split <;> split <;> rfl

/-! ## Instructions (rules R273, R274) -/

/-- From `s` to `t` the history gained at most one frame, after all the frames it had. -/
def AtMostOneFrame (s t : State) : Prop :=
  framesOf t.history = framesOf s.history ∨ ∃ F, framesOf t.history = framesOf s.history ++ [F]

/-- The send unit delivers its one frame or none. -/
theorem send_atMostOneFrame (s : State) (type : Half) (pl : List Byte) : AtMostOneFrame s (send s type pl).2 := by
  rcases send_spec s type pl with ⟨_, hsend⟩ | ⟨_, _, hsend⟩ | ⟨_, _, hsend⟩
  · exact .inl (by rw [hsend])
  · exact .inl (by rw [hsend])
  · exact .inr ⟨_, by rw [hsend]; exact framesOf_append _ _⟩

/-- The response that ends a sending command is no frame. -/
theorem sendAndRespond_atMostOneFrame (s : State) (type : Half) (pl : List Byte) :
    AtMostOneFrame s (sendAndRespond s type pl) :=
  send_atMostOneFrame s type pl

theorem execEmitPulse_atMostOneFrame {s t : State} (h : execEmitPulse s = .next t) : AtMostOneFrame s t := by
  unfold execEmitPulse at h
  split at h
  · cases h
    exact .inl rfl
  · split at h
    · cases h
      exact .inl rfl
    · split at h
      · cases h
      · cases h
        exact sendAndRespond_atMostOneFrame s.consumePulse 3 _

/-- A sender calls the send unit once, or refuses before it does. -/
theorem exec_atMostOneFrame {i : Instr} {s t : State} (hi : sendsFrame i = true) (h : exec i s = .next t) :
    AtMostOneFrame s t := by
  cases i with
  | emitPulse => exact execEmitPulse_atMostOneFrame h
  | sendHeartbeat =>
    cases h
    exact sendAndRespond_atMostOneFrame s.drawn 0 _
  | sendLog | sendReply =>
    cases h
    exact sendAndRespond_atMostOneFrame s _ _
  | frameHeartbeat | frameLog | frameReply | framePulse =>
    cases h
    exact send_atMostOneFrame s _ _
  | configure | start | stop | setTxEnable | readStatus | resolve | generate => cases hi

/-- CONFIGURE records releases, allocations and the gain, and no frame. -/
theorem execConfigure_framesOf {d g : Half} {fs fe fr : F32} {s t : State}
    (h : execConfigure d g fs fe fr s = .next t) : framesOf t.history = framesOf s.history := by
  rcases execConfigure_cases h with ⟨_, _, rfl⟩ | rfl | ⟨p, m, e, _, _, rfl⟩ | ⟨p, m, _, _, _, rfl⟩
  · simp
  · simp
  · simp [framesOf]
  · simp [framesOf]

/-- No instruction but a sender adds a frame to the history (rule R274). -/
theorem exec_framesOf_of_not_sendsFrame {i : Instr} {s t : State} (hi : sendsFrame i = false)
    (h : exec i s = .next t) : framesOf t.history = framesOf s.history := by
  cases i with
  | configure => exact execConfigure_framesOf h
  | start => rcases execStart_cases h with ⟨_, rfl⟩ | ⟨_, rfl⟩ <;> rfl
  | stop | setTxEnable | readStatus =>
    cases h
    rfl
  | resolve =>
    simp only [exec, execResolve] at h
    split at h <;> cases h <;> rfl
  | generate =>
    obtain ⟨_, _, rfl, _⟩ := execGenerate_frame h
    rfl
  | emitPulse | sendHeartbeat | sendLog | sendReply | frameHeartbeat | frameLog | frameReply | framePulse => cases hi

/-! ## Turns (rules R245, R250, R273) -/

/-- A turn that neither executes an instruction nor resets the block adds no frame to the history. -/
theorem takeTurn_framesOf {s t : State} {tn : Turn} (h : takeTurn tn s = .next t) (hcommand : tn ≠ .command)
    (hframer : tn ≠ .framer) (hreset : ∀ b, tn ≠ .reset b) : framesOf t.history = framesOf s.history := by
  rcases takeTurn_cases h with rfl | ⟨c, r, rfl⟩ | ⟨_, _, _, htn, _⟩ | ⟨adc, _, _, htick⟩ | ⟨w, _, _, rfl⟩
    | ⟨b, htn, _⟩
  · rfl
  · rfl
  · exact (htn.elim hcommand hframer).elim
  · obtain ⟨_, _, _, _, _, _, rfl, _⟩ := tickStep_frame htick
    simp [framesOf]
  · simp [framesOf]
  · exact absurd htn (hreset b)

/-! ## EMIT_PULSE (rules R285, R312) -/

theorem responseWords_invalidState : responseWords .invalidState [] = [0x00000106#32] := by decide

theorem responseWords_noPulse : responseWords .noPulse [] = [0x00000108#32] := by decide

theorem execEmitPulse_of_idle {s : State} (hmode : s.mode = .idle) :
    execEmitPulse s = .next { s with resp := s.resp ++ [[0x00000106#32]] } := by
  rw [execEmitPulse, if_pos hmode, State.raise, State.respond, responseWords_invalidState]

theorem execEmitPulse_of_nothing_pending {s : State} (hmode : s.mode ≠ .idle) (hseq : s.seq = s.lastEmitted) :
    execEmitPulse s = .next { s with resp := s.resp ++ [[0x00000108#32]] } := by
  rw [execEmitPulse, if_neg hmode, if_pos hseq, State.raise, State.respond, responseWords_noPulse]

/-- A pending pulse whose `K` samples are there is consumed and handed to the send unit. -/
theorem execEmitPulse_of_pending {s : State} (hmode : s.mode ≠ .idle) (hpending : s.seq ≠ s.lastEmitted)
    (hlen : s.inBuf.len = s.prof.inLen) (hbase : s.inBuf.base.toNat % 2 = 0)
    (hfits : s.inBuf.base.toNat + 2 * s.inBuf.len.toNat ≤ s.cfg.bufCapacity) :
    ∃ d : List Half, d.length = samplesPerPulse s
      ∧ execEmitPulse s = .next (sendAndRespond s.consumePulse 3 (statePulsePayload s d)) := by
  refine ⟨_, ?_, by rw [execEmitPulse, if_neg hmode, if_neg hpending, pulseSamples_eq_ok hlen hbase hfits]⟩
  split <;> simp

theorem length_statePulsePayload (s : State) (d : List Half) : (statePulsePayload s d).length = 32 + 2 * d.length := by
  rw [statePulsePayload, length_pulsePayload]

end Sys2Proof.Machine

namespace Sys2Proof.Proofs

open Sys2Proof.Machine

/-- Settles O18: a sender calls the send unit at most once, and nothing else that these turns do records a frame. -/
theorem onlySendersDeliverFrames : Obligations.OnlySendersDeliverFrames := by
  refine ⟨fun i s t h => ?_, fun _ _ _ h => takeTurn_framesOf h nofun nofun nofun,
    fun _ _ _ h => takeTurn_framesOf h nofun nofun nofun, fun _ _ _ h => takeTurn_framesOf h nofun nofun nofun⟩
  split
  · exact exec_atMostOneFrame ‹_› h
  · exact exec_framesOf_of_not_sendsFrame (Bool.eq_false_of_not_eq_true ‹_›) h

/-- Settles O56: the two checks of EMIT_PULSE, and the two refusals of the send unit once the pulse is consumed. -/
theorem pulseRefusals : Obligations.PulseRefusals := by
  intro s
  refine ⟨execEmitPulse_of_idle, execEmitPulse_of_nothing_pending, fun hmode hpending hlen hbase hfits => ?_⟩
  obtain ⟨d, hcount, hexec⟩ := execEmitPulse_of_pending hmode hpending hlen hbase hfits
  have hpl := length_statePulsePayload s d
  rw [hcount, samplesPerPulse] at hpl
  refine ⟨fun hroom => ?_, fun hroom hsize => ?_⟩
  · rw [exec, hexec, sendAndRespond_of_no_room 3 (by rw [State.consumePulse_cfg]; omega)]
    rfl
  · rw [exec, hexec, sendAndRespond_of_wide 3 (by rw [State.consumePulse_cfg]; omega) (by omega)]
    rfl

end Sys2Proof.Proofs

/-! SUPPORT. The statement on 60_exceptions.md: a block whose calibration failed stays in `Idle` (rule R306). -/

namespace Sys2Proof.Machine

/-- Case (a) of rule R228 asks for a passed calibration, so a failed one leaves case (b) alone (rule R306). -/
theorem State.Inv.mode_eq_idle_of_calFail {s : State} (hs : s.Inv) (hcal : s.calFail = true) : s.mode = .idle := by
  obtain ⟨_, _, _, _, hbound, _⟩ := hs
  by_contra hmode
  obtain ⟨hpassed, _⟩ := hbound hmode
  exact Bool.false_ne_true (hpassed.symm.trans hcal)

/-- Between resets a failed calibration stays recorded (rule R34). -/
theorem step_keeps_calFail_of_not_reset {s t : State} (h : step s = .next t) (hreset : ∀ b, s.nextTurn ≠ .reset b) :
    t.calFail = s.calFail := by
  obtain ⟨_, hcal⟩ := Proofs.onlyResetWritesCalFail s t h
  by_contra hne
  exact hreset _ (hcal hne)

end Sys2Proof.Machine

namespace Sys2Proof.Proofs

open Sys2Proof.Machine

/-- Settles O29: the step keeps the failed calibration (O16) and the invariant (O21), and the invariant allows a block
with a failed calibration no state but `Idle`. That CONFIGURE refuses such a block is part of O21's proof. -/
theorem failedCalibrationStaysIdle : Obligations.FailedCalibrationStaysIdle := by
  intro s t hs hcal h hreset
  have ht : t.Inv := stepKeepsTheInvariant s t hs h
  have hkept : t.calFail = true := (step_keeps_calFail_of_not_reset h hreset).trans hcal
  exact ⟨ht.mode_eq_idle_of_calFail hkept, hkept⟩

end Sys2Proof.Proofs

/-! SUPPORT. The statements on 70_reset_and_hazards.md: reset meets the invariants of the block, and as a step it sets
every piece of state of rule R340's table. -/

namespace Sys2Proof.Machine

/-! ## The parameters of TC1 (rule R8) -/

/-- The reference parameters are admitted, so `State.reset` is the reset state of an admitted configuration. -/
theorem configOk_tc1 : configOk Config.tc1 = true := by decide

/-! ## The invariants in `Idle` -/

/-- In `Idle` only case (b) of rule R228 is asked for: what the invariant says of a bound block is vacuous. -/
theorem State.inv_of_idle {s : State} (hcfg : configOk s.cfg = true) (hmode : s.mode = .idle)
    (henables : s.EnablesAgree) (hmem : s.MemoriesOk) (hunbound : s.Unbound) : s.Inv :=
  ⟨hcfg, henables, hmem, fun _ => hunbound, fun hbound => absurd hmode hbound,
    fun hrun => nomatch hmode.symm.trans hrun⟩

/-- The cursors are compared only while the block runs (rule R172). -/
theorem State.cursorsInStep_of_idle {s : State} (hmode : s.mode = .idle) : s.CursorsInStep :=
  fun hrun => nomatch hmode.symm.trans hrun

/-! ## The reset values (rule R340) -/

/-- No subsystem is enabled after reset (rule R36). -/
theorem State.resetWith_enablesAgree (c : Config) (b : Bool) (w : Word) : (State.resetWith c b w).EnablesAgree :=
  ⟨rfl, rfl, rfl, rfl⟩

/-- After reset neither memory lists a byte (rules R80, R82). -/
theorem State.resetWith_memoriesOk (c : Config) (b : Bool) (w : Word) : (State.resetWith c b w).MemoriesOk :=
  ⟨.nil, .nil, nofun, nofun⟩

/-- Nothing is bound after reset (rule R228). -/
theorem State.resetWith_unbound (c : Config) (b : Bool) (w : Word) : (State.resetWith c b w).Unbound :=
  ⟨rfl, rfl, rfl, rfl, rfl, rfl, rfl⟩

theorem State.resetWith_inv {c : Config} (h : configOk c = true) (b : Bool) (w : Word) :
    (State.resetWith c b w).Inv :=
  inv_of_idle h rfl (resetWith_enablesAgree c b w) (resetWith_memoriesOk c b w) (resetWith_unbound c b w)

/-- No allocation is recorded after reset and no buffer is held (rules R212, R214). -/
theorem State.resetWith_allocBalanced (c : Config) (b : Bool) (w : Word) : (State.resetWith c b w).AllocBalanced :=
  ⟨rfl, rfl⟩

/-- `SEQ` is 0 after reset, and no handler run is recorded (rule R42). -/
theorem State.resetWith_seqCounts (c : Config) (b : Bool) (w : Word) : (State.resetWith c b w).SeqCounts :=
  rfl

/-- Reset can be asserted in every state (rule R340). -/
theorem takeTurn_reset (s : State) (b : Bool) : takeTurn (.reset b) s = .next (s.resetStep b) :=
  rfl

end Sys2Proof.Machine

namespace Sys2Proof.Proofs

open Sys2Proof.Machine

/-- Settles O20: reset leaves the block in `Idle` with nothing bound, and the history empty. -/
theorem resetMeetsTheInvariant : Obligations.ResetMeetsTheInvariant :=
  ⟨State.resetWith_inv configOk_tc1 false 0, fun c b w hc =>
    ⟨State.resetWith_inv hc b w, State.cursorsInStep_of_idle rfl, State.resetWith_allocBalanced c b w,
      State.resetWith_seqCounts c b w⟩⟩

/-- Settles O60: the scheduled turn is reset's, and its next state is `resetStep` of the state whose schedule has moved
on; the record of R340's values is that state written out. -/
theorem resetSetsEveryPieceOfState : Obligations.ResetSetsEveryPieceOfState := by
  intro s b ts hc ht
  rw [step_of_turns hc ht, takeTurn_reset]
  rfl

end Sys2Proof.Proofs
